-- ==== Sys2Proof/Word.lean ====
section
/-! DEFINITION. The word types of the IR protocol block: every width of `spec/00_scope.md` section 4,
`spec/10_state.md` rules R13 to R26 and `spec/30_encoding.md` rules R61, R64, R66. What has a width that the build fixes
is a number: a duration in microseconds and the `arg` of format E, `DUR_W` bits (R26, R64, D16; the block compares
durations and passes them on, and never adds or shifts one, R114, R140), the count, `CNT_W` bits (R26, R137), the tag,
`TAG_W` bits (R24), a format E word, `2 + DUR_W` bits (R64), and a MATCH request, `1 + 2 * DUR_W` bits (R66). -/

namespace Sys2Proof

/-- The widths that are fixed when the hardware is built, arguments of the model (R7, D10, D16, U11): of a duration on
every port, of the count, of the tag. A type cannot carry them, because the machine behind the host's interface is one
type for every build; the values of these widths are numbers, cut to their width wherever they enter (log 1). -/
structure Build where
  durW : Nat
  cntW : Nat
  tagW : Nat
  deriving DecidableEq, Repr

/-- The defaults of `spec/00_scope.md` section 4, of which `spec/opcode_table.json` gives the words. -/
def Build.default : Build where
  durW := 16
  cntW := 16
  tagW := 8

/-- The payload and every register that holds one, `PAYLOAD_W` = 112 bits (R14, R20, R24). -/
abbrev Payload := BitVec 112

/-- A number of bits or of a bit cell, 7 bits (R15, R19, R22, R24). -/
abbrev BitNo := BitVec 7

/-- An index of the capture buffer, `IDX_W` = 8 bits (R18, R41). -/
abbrev CapIdx := BitVec 8

/-- A host command word, format H (R61). -/
abbrev HostWord := BitVec 120

end Sys2Proof
end

