-- ==== Sys2Proof/Config.lean ====
section
/-! DEFINITION. What is fixed when the block is built (R7, R11, R12), and the free values of the model: constants
without a body, of which no proof can use a value. -/

namespace Sys2Proof

/-- The kind of interval a duration is matched as (`spec/00_scope.md` section 7, R138), and the level of an interval on
the wire (R67). -/
inductive Role where
  | mark
  | space
  deriving DecidableEq, Repr, Inhabited

/-- How the mark of a bit cell is validated, `BIT_MARK_MODE` (R12, R106). -/
inductive BitMarkMode where
  | mark
  | spaceLegacy
  | skip
  deriving DecidableEq, Repr, Inhabited

/-- The reasons of NoMatch (R150 to R153). -/
inductive NoMatch where
  | length
  | header
  | bit (i : BitNo)
  deriving DecidableEq, Repr, Inhabited

/-- The Timing Table: exactly these eight entries and no other (R11). -/
structure TimingTable where
  hdrMark1 : Nat
  hdrSpace1 : Nat
  hdrMark2 : Nat
  hdrSpace2 : Nat
  bitMark : Nat
  oneSpace : Nat
  zeroSpace : Nat
  bitCount : Nat
  deriving DecidableEq, Repr

/-- The one immutable Timing Table (R11). -/
def Config.timing : TimingTable where
  hdrMark1 := 3050
  hdrSpace1 := 3050
  hdrMark2 := 3050
  hdrSpace2 := 4350
  bitMark := 600
  oneSpace := 1690
  zeroSpace := 600
  bitCount := 112

/-- `CARRIER_KHZ` (R12). -/
def Config.carrierKHz : Nat := 38

/-- `PS_LEN`, `4 + 2*BIT_COUNT + 1` (R12). -/
def Config.psLen : Nat := 4 + 2 * Config.timing.bitCount + 1

/-- `CAP_EXPECT`, `1 + PS_LEN` (R12). -/
def Config.capExpect : Nat := 1 + Config.psLen

/-- `BIT_MARK_MODE`, a build parameter the spec leaves open (D5, U11): no value, so that a claim holds for all three
modes. Safe. -/
opaque Config.bitMarkMode : BitMarkMode

/-- `PROTOCOL_TAG`, a build constant the spec leaves open (R24, D10); its low `TAG_W` bits are the tag. Safe. -/
opaque Config.protocolTag : Nat

/-- The tolerance predicate where MP1 to MP3 of R139 do not fix it (D6, U7). Safe. -/
opaque Config.matchFree : Role → Nat → Nat → Bool

/-- Draw number `k` of what CAPREAD returns for an entry changed while `DEC` is busy (R51, U3). Safe. -/
opaque Config.freeDur : Nat → Nat

/-- Draw number `k` of the count that `D_LEN` samples where `CAP_N` was changed while `DEC` is busy (R51, U3). Safe. -/
opaque Config.freeCount : Nat → Nat

/-- Draw number `k` of the level the emitter is left at by a reset that cuts a command short (R172, U10). Safe. -/
opaque Config.freeLevel : Nat → Bool

/-- Draw number `k` of how a DECODE ends whose buffer was changed under it: success, or a NoMatch of any reason (R51, U3;
log 20). Safe. -/
opaque Config.freeFailure : Nat → Option NoMatch

/-- Draw number `k` of the payload that such a DECODE reports if it ends in success (R51, U3; log 20). Safe. -/
opaque Config.freePayload : Nat → Payload

end Sys2Proof
end

