-- ==== Sys2Proof/Syntax.lean ====
section
/-! DEFINITION. The seven operations of `spec/opcode_table.json` (R73), the ports their words travel on, and the typed
emitter commands. -/

namespace Sys2Proof

/-- One constructor per row of the opcode table (R73). -/
inductive Instr where
  /-- ENCODE, HOST to ENC (R62, R80). -/
  | encode (payload : Payload) (bitWidth : BitNo)
  /-- DECODE, HOST to DEC; bits 118:0 of its word are ignored, so it has no operand (R63, R100). -/
  | decode
  /-- SPACE, ENC to EMITTER; `dur = 0` forces off with no delay (R133, R134). -/
  | space (dur : Nat)
  /-- MARK, ENC to EMITTER (R132). -/
  | mark (dur : Nat)
  /-- SETCARRIER, ENC to EMITTER (R131). -/
  | setCarrier (kHz : Nat)
  /-- CAPREAD, DEC to CAPTURE (R136). -/
  | capRead (idx : CapIdx)
  /-- MATCH, DEC to MATCHER (R138). -/
  | matchDur (role : Role) (actual : Nat) (nominal : Nat)
  deriving DecidableEq, Repr

/-- The four command and query ports. Each carries one format, so a word is read by its port alone (R66, R73). -/
inductive Port where
  | host
  | emitter
  | capture
  | matcher
  deriving DecidableEq, Repr

/-- A word on its port: format H (R61), format E (R64) and the two request forms of format Q (R66). -/
inductive PortWord where
  | host (w : HostWord)
  | emitter (w : Nat)
  | capture (w : CapIdx)
  | matcher (w : Nat)
  deriving DecidableEq, Repr

/-- An emitter command as a value (R64), the element of an emitter trace (R135). -/
inductive EmitCmd where
  | setCarrier (kHz : Nat)
  | mark (dur : Nat)
  | space (dur : Nat)
  deriving DecidableEq, Repr

/-- The emitter command seen as the instruction it is. -/
def EmitCmd.toInstr : EmitCmd → Instr
  | .setCarrier k => .setCarrier k
  | .mark d => .mark d
  | .space d => .space d

end Sys2Proof
end

