-- ==== Sys2Proof/WellFormed.lean ====
section
/-! DEFINITION. Which builds are legal (D16), and which instructions of a build the spec gives a meaning: an operand fits
its field, and ENCODE has no width of 113 to 127 (R70 (a), R93). -/

namespace Sys2Proof

/-- The bounds of the widths: `DUR_W >= 13`, `CNT_W >= 8` (`spec/00_scope.md` section 4, D16); `TAG_W` has none. -/
def Build.legal (b : Build) : Bool := decide (13 ≤ b.durW) && decide (8 ≤ b.cntW)

/-- The number is a duration of the build (R26). -/
def Build.durFits (b : Build) (d : Nat) : Bool := decide (d < 2 ^ b.durW)

/-- The legal widths of ENCODE, 0 to 112 (R62, R80). -/
def legalWidth (n : BitNo) : Bool := decide (n.toNat ≤ 112)

/-- An instruction of the build that the spec gives a meaning (R64, R66, R70). -/
def Instr.wellFormed (b : Build) : Instr → Bool
  | .encode _ n => legalWidth n
  | .decode => true
  | .space d => b.durFits d
  | .mark d => b.durFits d
  | .setCarrier k => b.durFits k
  | .capRead _ => true
  | .matchDur _ a n => b.durFits a && b.durFits n

end Sys2Proof
end

