-- ==== Sys2Proof/Decode.lean ====
section
/-! DEFINITION. The decoder of the port words, total and rejecting by name, and the encoder, both written from
`spec/30_encoding.md` rules R61 to R66. -/

namespace Sys2Proof

/-- Why a number on a port is no instruction. -/
inductive DecodeReject where
  /-- Format E with `eop = 3`, reserved (R64, R70 (c)). -/
  | reservedEmitterOp
  /-- The number has bits above the width of its port (R71: every word is of fixed width). -/
  | wordTooWide
  deriving DecidableEq, Repr

/-- A number on the low `DUR_W` wires: what a port carries of it (D16). -/
def Build.asDur (b : Build) (x : Nat) : Nat := x % 2 ^ b.durW

/-- A number on the `CNT_W` wires of the count (R26). -/
def Build.asCount (b : Build) (x : Nat) : Nat := x % 2 ^ b.cntW

/-- A number in the `TAG_W` bits of the tag (R24). -/
def Build.asTag (b : Build) (x : Nat) : Nat := x % 2 ^ b.tagW

/-- Width in bits of the words of a port (R71). R66 and R71 give the MATCH request its 33 bits at the default; with
another `DUR_W` it is `1 + 2 * DUR_W` bits, since `DUR_W` is the width of a duration on every port. DEDUCED (log 1). -/
def Port.width (b : Build) : Port → Nat
  | .host => 120
  | .emitter => 2 + b.durW
  | .capture => 8
  | .matcher => 1 + 2 * b.durW

/-- Format H: bit 119 alone tells ENCODE from DECODE; `bitWidth` is 118:112, `payload` 111:0 (R61 to R63, R73). -/
def decodeHost (w : HostWord) : Instr :=
  match (w.extractLsb' 119 1).toNat with
  | 0 => .encode (w.extractLsb' 0 112) (w.extractLsb' 112 7)
  | _ => .decode

/-- Format E: `eop` is the two top bits, `arg` the `DUR_W` bits below them, 17:16 and 15:0 at the default (R64). -/
def decodeEmit (b : Build) (w : Nat) : Except DecodeReject Instr :=
  match w / 2 ^ b.durW with
  | 0 => .ok (.space (b.asDur w))
  | 1 => .ok (.mark (b.asDur w))
  | 2 => .ok (.setCarrier (b.asDur w))
  | 3 => .error .reservedEmitterOp
  | _ => .error .wordTooWide

/-- Format Q, the MATCH request: `role` is the top bit, 0 for SPACE and 1 for MARK, then `actual`, then `nominal`: bits
32, 31:16 and 15:0 at the default (R66). -/
def decodeMatch (b : Build) (w : Nat) : Except DecodeReject Instr :=
  match w / 2 ^ (2 * b.durW) with
  | 0 => .ok (.matchDur .space (b.asDur (w / 2 ^ b.durW)) (b.asDur w))
  | 1 => .ok (.matchDur .mark (b.asDur (w / 2 ^ b.durW)) (b.asDur w))
  | _ => .error .wordTooWide

/-- The instruction a port word stands for. Total; of the words of a port's width only the reserved `eop = 3` is rejected
(R70, R73). -/
def decode (b : Build) : PortWord → Except DecodeReject Instr
  | .host w => .ok (decodeHost w)
  | .emitter w => decodeEmit b w
  | .capture w => .ok (.capRead w)
  | .matcher w => decodeMatch b w

/-- The number `w` as a word of the port. -/
def Port.wordOf (p : Port) (w : Nat) : PortWord :=
  match p with
  | .host => .host (BitVec.ofNat 120 w)
  | .emitter => .emitter w
  | .capture => .capture (BitVec.ofNat 8 w)
  | .matcher => .matcher w

/-- Any number on a port: rejected by name where it does not fit, otherwise decoded. -/
def decodeAt (b : Build) (p : Port) (w : Nat) : Except DecodeReject Instr :=
  if w < 2 ^ p.width b then decode b (p.wordOf w) else .error .wordTooWide

/-- The port whose rows of the opcode table have this many bits, rounded up to whole bytes: 8 for CAPREAD, 18 (24) for
format E, 33 (40) for MATCH, 120 for format H. -/
def Port.ofTableBits (nbits : Nat) : Option Port :=
  if nbits ≤ 8 then some .capture
  else if nbits ≤ 24 then some .emitter
  else if nbits ≤ 40 then some .matcher
  else if nbits ≤ 120 then some .host
  else none

/-- The instruction the decoder reads from a word of the opcode table, its bits numbered as the table numbers them. The
table gives the words of the default build. -/
def decodeTableWord (nbits w : Nat) : Option Instr :=
  match Port.ofTableBits nbits with
  | none => none
  | some p =>
    match decodeAt .default p w with
    | .ok i => some i
    | .error _ => none

/-! The encoder. -/

/-- The `role` bit of MATCH (R66). -/
def roleBit : Role → Nat
  | .space => 0
  | .mark => 1

/-- Format H of ENCODE: `op = 0` (R62). -/
def encodeWordH (payload : Payload) (bitWidth : BitNo) : HostWord := (0#1 ++ bitWidth) ++ payload

/-- Format H of DECODE: `op = 1`, the ignored bits 0 (R63, R72). -/
def decodeWordH : HostWord := 1#1 ++ 0#119

/-- Format E: `eop` above `arg` (R64). -/
def emitWordOf (b : Build) (eop : Nat) (arg : Nat) : Nat := eop * 2 ^ b.durW + arg

/-- The format E word of an emitter command: SPACE 0, MARK 1, SETCARRIER 2 (R64). -/
def EmitCmd.word (b : Build) : EmitCmd → Nat
  | .space d => emitWordOf b 0 d
  | .mark d => emitWordOf b 1 d
  | .setCarrier k => emitWordOf b 2 k

/-- The MATCH request word (R66). -/
def matchWordOf (b : Build) (role : Role) (actual nominal : Nat) : Nat :=
  (roleBit role * 2 ^ b.durW + actual) * 2 ^ b.durW + nominal

/-- The word of an instruction, on its port. -/
def encode (b : Build) : Instr → PortWord
  | .encode p n => .host (encodeWordH p n)
  | .decode => .host decodeWordH
  | .space d => .emitter (EmitCmd.word b (.space d))
  | .mark d => .emitter (EmitCmd.word b (.mark d))
  | .setCarrier k => .emitter (EmitCmd.word b (.setCarrier k))
  | .capRead i => .capture i
  | .matchDur r a n => .matcher (matchWordOf b r a n)

/-- The port of a word. -/
def PortWord.port : PortWord → Port
  | .host _ => .host
  | .emitter _ => .emitter
  | .capture _ => .capture
  | .matcher _ => .matcher

/-- The port an instruction travels on (R61, R64, R66). -/
def Instr.port : Instr → Port
  | .encode _ _ => .host
  | .decode => .host
  | .space _ => .emitter
  | .mark _ => .emitter
  | .setCarrier _ => .emitter
  | .capRead _ => .capture
  | .matchDur _ _ _ => .matcher

/-- A port word as a number. -/
def PortWord.toNat : PortWord → Nat
  | .host w => w.toNat
  | .emitter w => w
  | .capture w => w.toNat
  | .matcher w => w

end Sys2Proof
end

