-- ==== Sys2Proof/Machine/State.lean ====
section
/-! DEFINITION. The state of the machine as plain data (`spec/10_state.md`), its faults, its refusals, and the state
right after reset (R32, R171). -/

namespace Sys2Proof.Machine

open Sys2Proof

/-- `ENC_PHASE`: the encoder's sequencer position (R13). -/
inductive EncPhase where
  | idle
  | carrier
  | hm1
  | hs1
  | hm2
  | hs2
  | bitMark
  | bitSpace
  | trailMark
  | trailSpace
  deriving DecidableEq, Repr

/-- `DEC_STATE`: the decoder's sequencer position (R17). -/
inductive DecState where
  | idle
  | len
  | hdr
  | bitm
  | bits
  deriving DecidableEq, Repr

/-- `DEC_STATUS`: the outcome of the most recently completed DECODE (R21). -/
inductive DecStatus where
  | stNone
  | stMatch
  | stNoMatchLength
  | stNoMatchHeader
  | stNoMatchBit
  deriving DecidableEq, Repr

/-- One interval on the wire: a level and a duration (R67). -/
structure Interval where
  level : Role
  dur : Nat
  deriving DecidableEq, Repr

/-- One query of `DEC` with its answer, in the order asked (R29, R72, R112). -/
inductive Query where
  | capRead (idx : CapIdx) (dur : Nat)
  | matchDur (role : Role) (actual nominal : Nat) (ok : Bool)
  deriving DecidableEq, Repr

/-- The capture buffer's contents: pairs of an entry index and the duration stored there, in the canonical form of
`Memory.wf`. The smallest addressable unit is a whole entry (R41, R45). -/
abbrev Memory := List (Nat × Nat)

/-- What an index that is not listed reads as. DESIGN CHOICE, unsafe: the spec states no contents before CAPTURE has
written (log 3). -/
def Memory.unlisted : Nat := 0

/-- The registers of `ENC` (R13 to R15), its outstanding emitter command (R27) and the emitter trace (R135). -/
structure Encoder where
  phase : EncPhase
  data : Payload
  cnt : BitNo
  port : Option Nat
  trace : List EmitCmd
  deriving DecidableEq, Repr

/-- The registers of `DEC` (R17 to R20), its outstanding queries (R66), what the step in progress has learned (log 8),
and the queries made so far (R29). -/
structure Decoder where
  state : DecState
  idx : CapIdx
  i : BitNo
  acc : Payload
  capPort : Option CapIdx
  matchPort : Option Nat
  entry : Option Nat
  zeroTest : Bool
  queries : List Query
  deriving DecidableEq, Repr

/-- The outcome flags and the result record (R21 to R24). -/
structure Result where
  status : DecStatus
  errIdx : BitNo
  valid : Bool
  value : Payload
  bits : BitNo
  tag : Nat
  deriving DecidableEq, Repr

/-- What EMITTER holds: the level left by its last completed command, the carrier, and the intervals sent (R27, R67,
R131 to R134). -/
structure Emitter where
  on : Bool
  carrier : Nat
  wire : List Interval
  deriving DecidableEq, Repr

/-- What CAPTURE holds: `CAP_N` and `CAP` (R26, R41), and what of them was changed while `DEC` was busy since the last
acceptance of a DECODE (R51, log 11): the entries written, and the least count there was if the count was changed. -/
structure Capture where
  count : Nat
  cells : Memory
  dirty : List Nat
  countLow : Option Nat
  deriving DecidableEq, Repr

/-- One move of one agent. The first five let an agent inside or outside the block make its next move; the others are
what HOST and CAPTURE may do on their own (R26, R49, R172, R179). -/
inductive Act where
  /-- The agent that the pending host command is for looks at it (R81, R101). -/
  | host
  /-- `ENC` issues the command of its phase (R82 to R88). -/
  | enc
  /-- EMITTER runs the outstanding command and reports completion (R91, R135). -/
  | emitter
  /-- `DEC` checks the count, issues its next query, or goes on without one (R102 to R107). -/
  | dec
  /-- CAPTURE answers the outstanding CAPREAD (R136). -/
  | capture
  /-- MATCHER answers the outstanding MATCH (R138). -/
  | matcher
  /-- HOST presents a command word (R61). -/
  | present (w : HostWord)
  /-- HOST withdraws the pending command word and loses it (R179). -/
  | withdraw
  /-- CAPTURE writes one entry (R40, R49). -/
  | capWrite (idx : Nat) (dur : Nat)
  /-- CAPTURE sets the count (R26). -/
  | capCount (n : Nat)
  /-- Reset (R171, R172). -/
  | reset
  deriving DecidableEq, Repr

/-- The whole machine. `build` is the argument of the model that says which hardware this is (R7); no move writes it. -/
structure State where
  build : Build
  enc : Encoder
  dec : Decoder
  res : Result
  emitter : Emitter
  capture : Capture
  hostPort : Option HostWord
  draws : Nat
  script : List Act
  deriving DecidableEq, Repr

/-- Why the machine stops with a fault. The block itself has none (R150, R154). -/
inductive Fault where
  /-- Raised by CAPREAD of an index that is not below `CAP_N`: no such entry exists (R41, R46), and the block never
  issues it (R136). Safe: nothing is claimed about such a read. -/
  | captureEntryAbsent (idx : CapIdx)
  deriving DecidableEq, Repr

/-- Why the machine gives an instruction no meaning. -/
inductive Refusal where
  /-- Raised by `exec` alone, for an instruction that has no meaning yet. Safe. -/
  | notModelled (mnemonic : String)
  /-- Raised by ENCODE with a width of 113 to 127 when `ENC` is idle: undefined by the source (R70 (a), R93, U1).
  Safe. -/
  | encodeWidthUndefined (bitWidth : BitNo)
  /-- Raised by the step when the word outstanding is no instruction: a format E word with `eop = 3`, reserved, and what
  EMITTER does with it is outside the spec (R70 (c), U4); or a number wider than its port, which is no word of the build
  (R71). The block never issues either. Safe. -/
  | undecodableWord (reason : DecodeReject)
  deriving DecidableEq, Repr

/-- The encoder right after reset. `data` and `cnt` are unspecified by R32: DESIGN CHOICE 0, unsafe (log 2). -/
def Encoder.reset : Encoder where
  phase := .idle
  data := 0
  cnt := 0
  port := none
  trace := []

/-- The decoder right after reset. `idx`, `i`, `acc` are unspecified by R32: DESIGN CHOICE 0, unsafe (log 2). -/
def Decoder.reset : Decoder where
  state := .idle
  idx := 0
  i := 0
  acc := 0
  capPort := none
  matchPort := none
  entry := none
  zeroTest := false
  queries := []

/-- The outcome registers right after reset. `errIdx`, `value`, `bits`, `tag` are unspecified by R32: DESIGN CHOICE 0,
unsafe (log 2). -/
def Result.reset : Result where
  status := .stNone
  errIdx := 0
  valid := false
  value := 0
  bits := 0
  tag := 0

/-- EMITTER at the start. The block assumes nothing about it (R135): DESIGN CHOICE off, no carrier, unsafe (log 9). -/
def Emitter.start : Emitter where
  on := false
  carrier := 0
  wire := []

/-- CAPTURE at the start: no entry (log 3). -/
def Capture.start : Capture where
  count := 0
  cells := []
  dirty := []
  countLow := none

/-- The machine of a build right after reset (R32, R171, R173). -/
def State.resetOf (b : Build) : State where
  build := b
  enc := Encoder.reset
  dec := Decoder.reset
  res := Result.reset
  emitter := Emitter.start
  capture := Capture.start
  hostPort := none
  draws := 0
  script := []

/-- The machine of the default build right after reset. -/
def State.reset : State := State.resetOf .default

end Sys2Proof.Machine
end

