-- ==== Sys2Proof/Machine/Flags.lean ====
section
/-! DEFINITION. The flags and outputs of the block: the codes of R13, R17, R21, the busy flags of R16 and R28, and what
HOST reads at the read-only outputs of R141. -/

namespace Sys2Proof.Machine

open Sys2Proof

/-- The 4-bit code of `ENC_PHASE` (R13). -/
def EncPhase.code : EncPhase → BitVec 4
  | .idle => 0
  | .carrier => 1
  | .hm1 => 2
  | .hs1 => 3
  | .hm2 => 4
  | .hs2 => 5
  | .bitMark => 6
  | .bitSpace => 7
  | .trailMark => 8
  | .trailSpace => 9

/-- The 3-bit code of `DEC_STATE` (R17). -/
def DecState.code : DecState → BitVec 3
  | .idle => 0
  | .len => 1
  | .hdr => 2
  | .bitm => 3
  | .bits => 4

/-- The 3-bit code of `DEC_STATUS` (R21). -/
def DecStatus.code : DecStatus → BitVec 3
  | .stNone => 0
  | .stMatch => 1
  | .stNoMatchLength => 2
  | .stNoMatchHeader => 3
  | .stNoMatchBit => 4

/-- `ENC_BUSY`: 1 if and only if `ENC_PHASE` is not `E_IDLE` (R16). -/
def State.encBusy (s : State) : Bool := decide (s.enc.phase ≠ .idle)

/-- `DEC_BUSY`: 1 if and only if `DEC_STATE` is not `D_IDLE` (R28). -/
def State.decBusy (s : State) : Bool := decide (s.dec.state ≠ .idle)

/-- The status a NoMatch reason leaves (R151 to R153). -/
def failureStatus : NoMatch → DecStatus
  | .length => .stNoMatchLength
  | .header => .stNoMatchHeader
  | .bit _ => .stNoMatchBit

/-- `DEC_ERR_IDX` after a NoMatch: the cell for a bit failure, the old value for every other reason (R22, R156). -/
def failureErrIdx (r : NoMatch) (old : BitNo) : BitNo :=
  match r with
  | .bit i => i
  | .length => old
  | .header => old

/-- The outcome registers after a DECODE ends: in success all six writes of R109 (R24), with a NoMatch the status, and
`DEC_ERR_IDX` for a bit failure, while `RES_*` and `RES_VALID` stay (R156). -/
def Result.after (r : Result) (tag : Nat) (failure : Option NoMatch) (value : Payload) : Result :=
  match failure with
  | none =>
    { r with
      status := .stMatch
      valid := true
      value := value
      bits := BitVec.ofNat 7 Config.timing.bitCount
      tag := tag }
  | some e => { r with status := failureStatus e, errIdx := failureErrIdx e r.errIdx }

/-- What HOST reads at the outputs of R141. A register that the host must not read holds no value there: `RES_*` while
`RES_VALID = 0` (R24) and `DEC_ERR_IDX` while the status is no bit failure (R171). Safe (log 17). -/
structure HostView where
  encBusy : Bool
  decBusy : Bool
  decStatus : BitVec 3
  decErrIdx : Option BitNo
  resValid : Bool
  resValue : Option Payload
  resBits : Option BitNo
  resTag : Option Nat
  deriving DecidableEq, Repr

/-- The read-only outputs as HOST sees them in one state (R25, R141). -/
def State.hostView (s : State) : HostView where
  encBusy := s.encBusy
  decBusy := s.decBusy
  decStatus := s.res.status.code
  decErrIdx := if s.res.status = .stNoMatchBit then some s.res.errIdx else none
  resValid := s.res.valid
  resValue := if s.res.valid then some s.res.value else none
  resBits := if s.res.valid then some s.res.bits else none
  resTag := if s.res.valid then some s.res.tag else none

/-- The return value `DecodeResult | NoMatch` of the source's `decode` (R141). -/
inductive Verdict where
  | noMatch (reason : NoMatch)
  | isMatch (value : Payload) (bits : BitNo) (tag : Nat)
  deriving DecidableEq, Repr

/-- The return value of the most recently completed DECODE, read from `DEC_STATUS`, `DEC_ERR_IDX` and the record (R141);
none before the first. -/
def State.decodeReturn (s : State) : Option Verdict :=
  match s.res.status with
  | .stNone => none
  | .stMatch => some (.isMatch s.res.value s.res.bits s.res.tag)
  | .stNoMatchLength => some (.noMatch .length)
  | .stNoMatchHeader => some (.noMatch .header)
  | .stNoMatchBit => some (.noMatch (.bit s.res.errIdx))

/-- No agent has an operation in progress and no host command is pending: a run is final (R175). -/
def State.final (s : State) : Bool := !s.encBusy && !s.decBusy && s.hostPort.isNone

end Sys2Proof.Machine
end

