-- ==== Sys2Proof/Machine/Operands.lean ====
section
/-! DEFINITION. How every operand is formed (R69): the command of each encoder phase, the selected payload bit, the role
and nominal of each header segment, the MATCH request of each decoder step, and the tolerance predicate. -/

namespace Sys2Proof.Machine

open Sys2Proof

/-- The payload bit of the cell being sent, `ENC_DATA[ENC_CNT - 1]` (R15, R86). -/
def Encoder.selectedBit (e : Encoder) : Bool := e.data.getLsbD (e.cnt - 1).toNat

/-- The space of a bit cell: one-space for 1, zero-space for 0 (R69 (b), R86). -/
def bitSpaceDur (b : Bool) : Nat := if b then Config.timing.oneSpace else Config.timing.zeroSpace

/-- The command that `ENC` issues in each phase, none while it is idle (R13, R82 to R88). -/
def Encoder.command (e : Encoder) : Option EmitCmd :=
  match e.phase with
  | .idle => none
  | .carrier => some (.setCarrier Config.carrierKHz)
  | .hm1 => some (.mark Config.timing.hdrMark1)
  | .hs1 => some (.space Config.timing.hdrSpace1)
  | .hm2 => some (.mark Config.timing.hdrMark2)
  | .hs2 => some (.space Config.timing.hdrSpace2)
  | .bitMark => some (.mark Config.timing.bitMark)
  | .bitSpace => some (.space (bitSpaceDur e.selectedBit))
  | .trailMark => some (.mark Config.timing.bitMark)
  | .trailSpace => some (.space 0)

/-- The header segment about to be matched, `k = DEC_IDX - 1` (R30, R104). -/
def Decoder.segment (d : Decoder) : CapIdx := d.idx - 1

/-- `ROLE[k]`: MARK, SPACE, MARK, SPACE (R104). -/
def headerRole (k : CapIdx) : Role := if k.getLsbD 0 then .space else .mark

/-- `HDR[k]`: the four header durations (R104). A `k` above 3 is in no run (R30); the last row stands for it (log 15). -/
def headerNominal (k : CapIdx) : Nat :=
  if k = 0 then Config.timing.hdrMark1
  else if k = 1 then Config.timing.hdrSpace1
  else if k = 2 then Config.timing.hdrMark2
  else Config.timing.hdrSpace2

/-- The operands of one MATCH query (R138). -/
structure MatchReq where
  role : Role
  actual : Nat
  nominal : Nat
  deriving DecidableEq, Repr

/-- The request as a format Q word (R66). -/
def MatchReq.word (b : Build) (r : MatchReq) : Nat := matchWordOf b r.role r.actual r.nominal

/-- The query that checks a bit mark `m`, none in mode SKIP (R106). -/
def markQuery (mode : BitMarkMode) (m : Nat) : Option MatchReq :=
  match mode with
  | .mark => some ⟨.mark, m, Config.timing.bitMark⟩
  | .spaceLegacy => some ⟨.space, m, Config.timing.bitMark⟩
  | .skip => none

/-- The query that classifies a bit space: the one-space first, the zero-space only after it said no (R107, R120). -/
def spaceQuery (zeroTest : Bool) (s : Nat) : MatchReq :=
  ⟨.space, s, if zeroTest then Config.timing.zeroSpace else Config.timing.oneSpace⟩

/-- The MATCH query of the present step about the entry `x` it has read, if it makes one (R104, R106, R107). -/
def Decoder.matchReq (mode : BitMarkMode) (d : Decoder) (x : Nat) : Option MatchReq :=
  match d.state with
  | .idle => none
  | .len => none
  | .hdr => some ⟨headerRole d.segment, x, headerNominal d.segment⟩
  | .bitm => markQuery mode x
  | .bits => some (spaceQuery d.zeroTest x)

/-- The durations of the Timing Table, {3050, 4350, 600, 1690} (R139 MP1). -/
def isTableDur (n : Nat) : Bool :=
  n = Config.timing.hdrMark1 || n = Config.timing.hdrSpace1 || n = Config.timing.hdrMark2 || n = Config.timing.hdrSpace2
    || n = Config.timing.bitMark || n = Config.timing.oneSpace || n = Config.timing.zeroSpace

/-- The arguments at which MP2 and MP3 of R139 fix the answer no. -/
def isFixedNo (role : Role) (a n : Nat) : Bool :=
  role = .space &&
    ((a = 2000 && (n = Config.timing.zeroSpace || n = Config.timing.oneSpace))
      || (a = Config.timing.zeroSpace && n = Config.timing.oneSpace))

/-- A tolerance predicate made from any `free`: yes where MP1 says so, no where MP2 and MP3 say so, `free` elsewhere
(R139). As `free` ranges over all functions this ranges over exactly the predicates with MP1 to MP3 (log 5). -/
def matchWith (free : Role → Nat → Nat → Bool) (role : Role) (a n : Nat) : Bool :=
  if a = n && isTableDur n then true
  else if isFixedNo role a n then false
  else free role a n

/-- The block's predicate `match(role, a, n)`, one fixed total pure function (R138, U7). -/
def matchTol (role : Role) (a n : Nat) : Bool := matchWith Config.matchFree role a n

end Sys2Proof.Machine
end

