-- ==== Sys2Proof/Machine/Ops.lean ====
section
/-! DEFINITION. The named operations on the state: the capture buffer, the free draws, the two halves of an encoder
step, the parts of a decoder step, the one NoMatch transition (R156), terminal success (R109), and reset (R171). -/

namespace Sys2Proof.Machine

open Sys2Proof

/-! The memory: the capture buffer (R40 to R48). -/

/-- The duration at index `a` (R41). -/
def Memory.read : Memory → Nat → Nat
  | [], _ => Memory.unlisted
  | (k, v) :: rest, a => if a = k then v else Memory.read rest a

/-- Stores `v` at index `a`, in canonical form. -/
def Memory.write : Memory → Nat → Nat → Memory
  | [], a, v => if v = Memory.unlisted then [] else [(a, v)]
  | (k, x) :: rest, a, v =>
    if a < k then (if v = Memory.unlisted then (k, x) :: rest else (a, v) :: (k, x) :: rest)
    else if a = k then (if v = Memory.unlisted then rest else (a, v) :: rest)
    else (k, x) :: Memory.write rest a v

/-- Every listed index is at least `lo`, indices strictly rise, and no listed value is the unlisted one. -/
def Memory.wfFrom : Nat → Memory → Bool
  | _, [] => true
  | lo, (k, v) :: rest => decide (lo ≤ k) && decide (v ≠ Memory.unlisted) && Memory.wfFrom (k + 1) rest

/-- The canonical form of the memory: equal buffers are equal data. -/
def Memory.wf (m : Memory) : Bool := Memory.wfFrom 0 m

/-- Entry `i` was written while `DEC` was busy, or the count was changed and there was one at which the entry was not
present: what a read of it returns is any value (R51, U3; log 11). -/
def Capture.touched (c : Capture) (i : CapIdx) : Bool :=
  c.dirty.contains i.toNat ||
    match c.countLow with
    | none => false
    | some low => decide (low ≤ i.toNat)

/-- CAPTURE changed something of the buffer, whatever it was, since the DECODE was accepted and while `DEC` was busy: the
run has no defined result (R51, R178, U3). DESIGN CHOICE, safe: that holds too for an entry already read or never read
and for a count changed after `D_LEN`, of which the spec does not speak apart (log 20). -/
def Capture.broken (c : Capture) : Bool := !c.dirty.isEmpty || c.countLow.isSome

/-- What a CAPREAD of index `i` answers (R136): a free draw for a touched entry (R51), the stored duration for a present
one, nothing for one that does not exist (R41, R46). -/
def State.readEntry (s : State) (i : CapIdx) : Option Nat :=
  if s.capture.touched i then some (s.build.asDur (Config.freeDur s.draws))
  else if i.toNat < s.capture.count then some (s.capture.cells.read i.toNat)
  else none

/-- The count that `D_LEN` samples: `CAP_N`, or a free draw where it was changed while `DEC` was busy (R51, R137). -/
def State.sampledCount (s : State) : Nat :=
  if s.capture.countLow.isSome then s.build.asCount (Config.freeCount s.draws) else s.capture.count

/-- What CAPTURE holds after it has stored `dur` at `idx`; `busy` marks the entry. -/
def Capture.write (idx : Nat) (dur : Nat) (busy : Bool) (c : Capture) : Capture :=
  { c with
    cells := c.cells.write idx dur
    dirty := if busy && !c.dirty.contains idx then idx :: c.dirty else c.dirty }

/-- What CAPTURE holds after it has set the count to `n`; `busy` marks the least count. -/
def Capture.setCount (n : Nat) (busy : Bool) (c : Capture) : Capture :=
  { c with
    count := n
    countLow := if busy then some (min (c.countLow.getD c.count) (min c.count n)) else c.countLow }

/-- Nothing has been changed since the DECODE was accepted (R50). -/
def Capture.settle (c : Capture) : Capture := { c with dirty := [], countLow := none }

/-- CAPTURE stores a duration (R40), as many bits of it as the port has (U12). DESIGN CHOICE, safe: the buffer takes a
write at every index, since its capacity is left to CAPTURE (R43; log 21). While `DEC` is busy the host's duty is broken
(R178) and the entry is marked. -/
def State.capWrite (idx : Nat) (dur : Nat) (s : State) : State :=
  { s with capture := s.capture.write idx (s.build.asDur dur) s.decBusy }

/-- CAPTURE sets the count (R26), as many bits of it as the port has (log 21); while `DEC` is busy the host's duty is broken (R178) and the count is marked. -/
def State.capCount (n : Nat) (s : State) : State :=
  { s with capture := s.capture.setCount (s.build.asCount n) s.decBusy }

/-! The encoder (R81 to R88) and EMITTER (R131 to R134). -/

/-- Acceptance of ENCODE (R81): the payload and the width are copied, no command is issued. -/
def State.acceptEncode (p : Payload) (n : BitNo) (s : State) : State :=
  { s with hostPort := none, enc := { s.enc with data := p, cnt := n, phase := .carrier } }

/-- The first half of an encoder step: the command of the phase is issued and held (R27, R135); `ENC` waits while one is
outstanding and does nothing while it is idle (R91). -/
def Encoder.issue (b : Build) (e : Encoder) : Encoder :=
  match e.port with
  | some _ => e
  | none =>
    match e.command with
    | none => e
    | some c => { e with port := some (c.word b), trace := e.trace ++ [c] }

/-- The phase after the loop test on a count (R84, R86, R96). -/
def cellPhase (cnt : BitNo) : EncPhase := if cnt = 0 then .trailMark else .bitMark

/-- The phase that follows (R96); `cnt` is `ENC_CNT` before the step. -/
def EncPhase.next (cnt : BitNo) : EncPhase → EncPhase
  | .idle => .idle
  | .carrier => .hm1
  | .hm1 => .hs1
  | .hs1 => .hm2
  | .hm2 => .hs2
  | .hs2 => cellPhase cnt
  | .bitMark => .bitSpace
  | .bitSpace => cellPhase (cnt - 1)
  | .trailMark => .trailSpace
  | .trailSpace => .idle

/-- The second half of an encoder step: EMITTER has reported completion and the registers are written (R82 to R88, R91).
An idle `ENC` has no step to finish. -/
def Encoder.complete (e : Encoder) : Encoder :=
  { e with
    port := none
    phase := e.phase.next e.cnt
    cnt := if e.phase = .bitSpace then e.cnt - 1 else e.cnt }

/-- What EMITTER does for a command: SETCARRIER sets the frequency and makes no interval (R131), MARK turns the emitter
on for the duration (R132), SPACE turns it off for the duration (R133), and SPACE 0 turns it off and makes no interval
(R134). -/
def Emitter.run (m : Emitter) : EmitCmd → Emitter
  | .setCarrier k => { m with carrier := k }
  | .mark d => { m with on := true, wire := m.wire ++ [⟨.mark, d⟩] }
  | .space d => { m with on := false, wire := if d = 0 then m.wire else m.wire ++ [⟨.space, d⟩] }

/-- EMITTER runs a command to its end and reports completion, and `ENC` finishes its step (R91, R135). -/
def State.runCommand (c : EmitCmd) (s : State) : State :=
  { s with emitter := s.emitter.run c, enc := s.enc.complete }

/-! The decoder (R101 to R110). -/

/-- Acceptance of DECODE (R101). It is the synchronisation point: what CAPTURE wrote before is stable (R50). -/
def State.acceptDecode (s : State) : State :=
  { s with
    hostPort := none
    dec := { s.dec with state := .len }
    capture := s.capture.settle }

/-- The tag that a success reports, `TAG_W` bits (R24, D10). -/
def State.tag (s : State) : Nat := s.build.asTag Config.protocolTag

/-- A drawn way to end, its cell one of the 112 (R22). -/
def drawnFailure (k : Nat) : Option NoMatch :=
  match Config.freeFailure k with
  | some (.bit i) => some (.bit (i % 112))
  | f => f

/-- The DECODE ends (R109, R156): the outcome registers are written in one step. Where the buffer was changed under it
the outcome is any (R51, U3; log 20). -/
def State.finish (failure : Option NoMatch) (value : Payload) (s : State) : State :=
  if s.capture.broken then
    { s with
      res := s.res.after s.tag (drawnFailure s.draws) (Config.freePayload s.draws)
      draws := s.draws + 1 }
  else { s with res := s.res.after s.tag failure value }

/-- `raise NoMatch(reason)`: the one transition by which a DECODE ends in failure (R156). The record `RES_*` and
`RES_VALID` are not written; `DEC_ACC`, `DEC_IDX`, `DEC_I` keep what they held. There is no handler and no return
(R156, R158). -/
def State.raiseNoMatch (r : NoMatch) (s : State) : State :=
  State.finish (some r) s.dec.acc
    { s with dec := { s.dec with state := .idle, entry := none, zeroTest := false } }

/-- Step `D_LEN` (R102, R103): the count is compared at full width. -/
def State.checkLength (s : State) : State :=
  let s' := { s with draws := if s.capture.countLow.isSome then s.draws + 1 else s.draws }
  if s.sampledCount ≠ Config.capExpect then s'.raiseNoMatch .length
  else { s' with dec := { s.dec with
      state := .hdr
      idx := 1
      i := 0
      acc := 0
      entry := none
      zeroTest := false } }

/-- The entry is consumed: the index moves forward by one and the next step starts afresh (R18). -/
def Decoder.consume (d : Decoder) (next : DecState) : Decoder :=
  { d with state := next, idx := d.idx + 1, entry := none, zeroTest := false }

/-- `((DEC_ACC << 1) | b)[111:0]` (R108, R114 (d)). -/
def appendBit (acc : Payload) (b : Bool) : Payload := (acc <<< 1) ||| BitVec.ofNat 112 b.toNat

/-- A bit was found (R108): it is appended, and after the last cell the DECODE ends in success with all writes together
(R109). -/
def State.takeBit (b : Bool) (s : State) : State :=
  let acc := appendBit s.dec.acc b
  if s.dec.i.toNat = Config.timing.bitCount - 1 then
    State.finish none acc { s with dec := { s.dec.consume .idle with acc := acc } }
  else { s with dec := { s.dec.consume .bitm with acc := acc, i := s.dec.i + 1 } }

/-- A header segment matched (R104): after segment 3 the bit loop begins. -/
def State.headerOk (s : State) : State :=
  { s with dec := s.dec.consume (if s.dec.segment = 3 then .bitm else .hdr) }

/-- A bit mark was accepted (R106). -/
def State.markOk (s : State) : State := { s with dec := s.dec.consume .bits }

/-- `DEC` goes on with the answer to a MATCH query: R104 in the header, R106 for a bit mark, R107 for a bit space (a yes
to the first test is a 1, to the second a 0; a no to the first asks the second). No step of an idle `DEC` or of `D_LEN`
awaits an answer (log 19). -/
def State.useAnswer (ok : Bool) (s : State) : State :=
  match s.dec.state with
  | .idle => s
  | .len => s
  | .hdr => if ok then s.headerOk else s.raiseNoMatch .header
  | .bitm => if ok then s.markOk else s.raiseNoMatch (.bit s.dec.i)
  | .bits =>
    if ok then s.takeBit (!s.dec.zeroTest)
    else if s.dec.zeroTest then s.raiseNoMatch (.bit s.dec.i)
    else { s with dec := { s.dec with zeroTest := true } }

/-- The answer `d` of CAPTURE to a CAPREAD reaches `DEC`, and the query is recorded (R29, R136). -/
def State.answerRead (i : CapIdx) (d : Nat) (s : State) : State :=
  { s with
    draws := if s.capture.touched i then s.draws + 1 else s.draws
    dec := { s.dec with
      capPort := none
      entry := some d
      queries := s.dec.queries ++ [.capRead i d] } }

/-- The answer `ok` of MATCHER to a MATCH is recorded (R29, R138) and `DEC` goes on with it. -/
def State.answerMatch (r : Role) (a n : Nat) (ok : Bool) (s : State) : State :=
  State.useAnswer ok { s with dec := { s.dec with
      matchPort := none
      queries := s.dec.queries ++ [.matchDur r a n ok] } }

/-- `DEC` issues the CAPREAD of its next entry (R18, R104, R106, R107). -/
def State.issueRead (s : State) : State := { s with dec := { s.dec with capPort := some s.dec.idx } }

/-- `DEC` has read `x`: it issues the MATCH of its step, or in mode SKIP accepts the mark without one (R106). -/
def State.issueMatch (x : Nat) (s : State) : State :=
  match s.dec.matchReq Config.bitMarkMode x with
  | some r => { s with dec := { s.dec with matchPort := some (r.word s.build) } }
  | none => s.markOk

/-- One move of `DEC` inside a step that reads an entry: it waits for an outstanding query, reads, then matches. -/
def State.advanceScan (s : State) : State :=
  if s.dec.capPort.isSome || s.dec.matchPort.isSome then s
  else
    match s.dec.entry with
    | none => s.issueRead
    | some x => s.issueMatch x

/-- One move of `DEC` (R17, R118). -/
def State.moveDec (s : State) : State :=
  match s.dec.state with
  | .idle => s
  | .len => s.checkLength
  | .hdr => s.advanceScan
  | .bitm => s.advanceScan
  | .bits => s.advanceScan

/-! Reset (R171, R172). -/

/-- Reset of the block: the registers take their reset values, an operation in progress is abandoned where it stands,
and no command is issued. What EMITTER, CAPTURE and HOST hold stays; the level of the emitter is free if a command was
cut short (U10). The records of what was issued and asked stay (log 10). -/
def State.blockReset (s : State) : State :=
  { s with
    enc := { Encoder.reset with trace := s.enc.trace }
    dec := { Decoder.reset with queries := s.dec.queries }
    res := Result.reset
    emitter := { s.emitter with
      on := if s.enc.port.isSome then Config.freeLevel s.draws else s.emitter.on }
    capture := s.capture.settle
    draws := if s.enc.port.isSome then s.draws + 1 else s.draws }

/-! Fetch: where the next instruction of each move stands. -/

/-- The word that a move runs: the pending host command, the outstanding emitter command, or an outstanding query. The
other moves run no word. -/
def State.fetch (a : Act) (s : State) : Option PortWord :=
  match a with
  | .host => s.hostPort.map .host
  | .emitter => s.enc.port.map .emitter
  | .capture => s.dec.capPort.map .capture
  | .matcher => s.dec.matchPort.map .matcher
  | .enc => none
  | .dec => none
  | .present _ => none
  | .withdraw => none
  | .capWrite _ _ => none
  | .capCount _ => none
  | .reset => none

/-- A move that runs no word: an issue by `ENC` or `DEC`, an action of HOST or CAPTURE, or reset. An agent with no word
to run does nothing (R165). -/
def State.move (a : Act) (s : State) : State :=
  match a with
  | .host => s
  | .emitter => s
  | .capture => s
  | .matcher => s
  | .enc => { s with enc := s.enc.issue s.build }
  | .dec => s.moveDec
  | .present w => { s with hostPort := some w }
  | .withdraw => { s with hostPort := none }
  | .capWrite i d => s.capWrite i d
  | .capCount n => s.capCount n
  | .reset => s.blockReset

end Sys2Proof.Machine
end

