-- ==== Sys2Proof/Machine/EmitterCommands.lean ====
section
/-! DEFINITION. The meanings of the three emitter commands (R131 to R135): EMITTER runs the command, reports completion,
and `ENC` writes the registers of the phase that issued it (R91). -/

namespace Sys2Proof.Machine

open Sys2Proof

/-- SPACE `d`: the emitter is off for `d` µs (R133); SPACE 0 forces it off with no delay (R134). -/
def execSpace (dur : Nat) (s : State) : Host.Outcome State Fault Refusal := .next (s.runCommand (.space dur))

/-- MARK `d`: the emitter is on for `d` µs (R132). -/
def execMark (dur : Nat) (s : State) : Host.Outcome State Fault Refusal := .next (s.runCommand (.mark dur))

/-- SETCARRIER `k`: every following mark is modulated at `k` kHz (R131). -/
def execSetCarrier (kHz : Nat) (s : State) : Host.Outcome State Fault Refusal := .next (s.runCommand (.setCarrier kHz))

end Sys2Proof.Machine
end

