-- ==== Sys2Proof/Machine/HostCommands.lean ====
section
/-! DEFINITION. The meanings of the two host commands, ENCODE and DECODE (R80, R81, R93, R100, R101, R179). -/

namespace Sys2Proof.Machine

open Sys2Proof

/-- ENCODE: accepted while `ENC` is idle (R81); while it is busy the word stays pending and has no effect (R81, R179); a
width of 113 to 127 has no meaning (R93). -/
def execEncode (payload : Payload) (bitWidth : BitNo) (s : State) : Host.Outcome State Fault Refusal :=
  if s.encBusy then .next s
  else if legalWidth bitWidth then .next (s.acceptEncode payload bitWidth)
  else .refused (.encodeWidthUndefined bitWidth)

/-- DECODE: accepted while `DEC` is idle; while it is busy the word stays pending and has no effect (R101, R179). -/
def execDecode (s : State) : Host.Outcome State Fault Refusal :=
  if s.decBusy then .next s else .next s.acceptDecode

end Sys2Proof.Machine
end

