-- ==== Sys2Proof/Machine/Queries.lean ====
section
/-! DEFINITION. The meanings of the two queries, CAPREAD and MATCH (R136, R138). -/

namespace Sys2Proof.Machine

open Sys2Proof

/-- CAPREAD `i`: CAPTURE answers `CAP[i]` (R136). An index that is not below `CAP_N` selects no entry (R41, R46). -/
def execCapRead (idx : CapIdx) (s : State) : Host.Outcome State Fault Refusal :=
  match s.readEntry idx with
  | some d => .next (s.answerRead idx d)
  | none => .fault (.captureEntryAbsent idx)

/-- MATCH `role, a, n`: MATCHER answers `match(role, a, n)` (R138) and `DEC` goes on with the answer. -/
def execMatchDur (role : Role) (actual nominal : Nat) (s : State) : Host.Outcome State Fault Refusal :=
  .next (s.answerMatch role actual nominal (matchTol role actual nominal))

end Sys2Proof.Machine
end

