-- ==== Sys2Proof/Machine/Dispatch.lean ====
section
/-! DEFINITION. The meaning of an instruction: one arm per constructor. -/

namespace Sys2Proof.Machine

open Sys2Proof

def exec (i : Instr) (s : State) : Host.Outcome State Fault Refusal :=
  match i with
  | .encode payload bitWidth => Sys2Proof.Machine.execEncode payload bitWidth s
  | .decode => Sys2Proof.Machine.execDecode s
  | .space dur => Sys2Proof.Machine.execSpace dur s
  | .mark dur => Sys2Proof.Machine.execMark dur s
  | .setCarrier kHz => Sys2Proof.Machine.execSetCarrier kHz s
  | .capRead idx => Sys2Proof.Machine.execCapRead idx s
  | .matchDur role actual nominal => Sys2Proof.Machine.execMatchDur role actual nominal s

end Sys2Proof.Machine
end

