-- ==== Sys2Proof/Machine/Run.lean ====
section
/-! DEFINITION. One move of one agent: the word it runs is fetched from its port and decoded, and the instruction is run;
a move without a word is an operation of `Sys2Proof/Machine/Ops.lean`. -/

namespace Sys2Proof.Machine

open Sys2Proof

/-- One move (R91, R101, R135). The reserved `eop = 3` and a number wider than its port are refused by
name (R70 (c), R71). -/
def runAct (a : Act) (s : State) : Host.Outcome State Fault Refusal :=
  match s.fetch a with
  | none => .next (s.move a)
  | some w =>
    match decode s.build w with
    | .ok i => exec i s
    | .error r => .refused (.undecodableWord r)

/-- The host command, emitter command or query `w` is placed on its port, and the agent that runs it moves next. -/
def State.place (w : PortWord) (s : State) : State :=
  match w with
  | .host x => { s with hostPort := some x, script := .host :: s.script }
  | .emitter x => { s with enc := { s.enc with port := some x }, script := .emitter :: s.script }
  | .capture x => { s with dec := { s.dec with capPort := some x }, script := .capture :: s.script }
  | .matcher x => { s with dec := { s.dec with matchPort := some x }, script := .matcher :: s.script }

end Sys2Proof.Machine
end

