-- ==== Sys2Proof/Machine/Step.lean ====
section
/-! DEFINITION. One step of the machine: the first move of the script is made (log 7). -/

namespace Sys2Proof.Machine

open Sys2Proof

/-- The next agent of the script moves. With no move left nothing happens: an idle block waits (R165, R173), and a busy
one waits for an answer that does not come (R183). -/
def step (s : State) : Host.Outcome State Fault Refusal :=
  match s.script with
  | [] => .next s
  | a :: rest => runAct a { s with script := rest }

/-- `s` with the instruction of `nbits` table bits `w` on the port that carries it and its agent the next to move, so
that the next step runs it (log 13). -/
def State.withFetchWord (s : State) (nbits w : Nat) : State :=
  match Port.ofTableBits nbits with
  | some p => s.place (Port.wordOf p w)
  | none => s

end Sys2Proof.Machine
end

