-- ==== Sys2Proof/Safety.lean ====
section
/-! DEFINITION. The terms claims are made in: the invariant of the machine, the emitter trace and the frame of an ENCODE
as functions (R67, R89), the decoder and its queries as functions (R112, R113), the loopback (R115), and the scripts that
let an operation run to its end. -/

namespace Sys2Proof.Machine

open Sys2Proof

/-! The encoder as a function. -/

/-- The symbol HEADER (R68). -/
def headerCmds : List EmitCmd := [.mark 3050, .space 3050, .mark 3050, .space 4350]

/-- The symbols BIT1 and BIT0 (R68). -/
def bitCmds (b : Bool) : List EmitCmd := [.mark 600, .space (if b then 1690 else 600)]

/-- The symbol TRAILER (R68). -/
def trailerCmds : List EmitCmd := [.mark 600, .space 0]

/-- The bit symbols of cells 0 to `n - 1`, the first on the wire first: cell `c` carries `P[n-1-c]` (R44, R69 (c)). -/
def cellCmds (p : Payload) (n : Nat) : List EmitCmd :=
  (List.range n).flatMap fun c => bitCmds (p.getLsbD (n - 1 - c))

/-- `Trace(P, n)` (R89). -/
def traceOf (p : Payload) (n : Nat) : List EmitCmd :=
  .setCarrier 38 :: (headerCmds ++ (cellCmds p n ++ trailerCmds))

/-- The frame for payload `P` and width `n`, as the table of R67 lists it. -/
def frameOf (p : Payload) (n : Nat) : List Interval :=
  [⟨.mark, 3050⟩, ⟨.space, 3050⟩, ⟨.mark, 3050⟩, ⟨.space, 4350⟩]
    ++ ((List.range n).flatMap fun c =>
          [⟨.mark, 600⟩, ⟨.space, if p.getLsbD (n - 1 - c) then 1690 else 600⟩])
    ++ [⟨.mark, 600⟩]

/-- The eight commands that the block ever issues (R65). -/
def issuedCmds : List EmitCmd :=
  [.setCarrier 38, .mark 3050, .space 3050, .space 4350, .mark 600, .space 1690, .space 600, .space 0]

/-- Their format E words in the default build, as R65 lists them. -/
def issuedWords : List Nat :=
  [0x20026, 0x10BEA, 0x00BEA, 0x010FE, 0x10258, 0x0069A, 0x00258, 0x00000]

/-- The commands that `ENC` has still to complete, from the command of its phase on: what R82 to R88 leave to do. -/
def Encoder.toDo (e : Encoder) : List EmitCmd :=
  let cells := cellCmds e.data e.cnt.toNat
  match e.phase with
  | .idle => []
  | .carrier => .setCarrier 38 :: (headerCmds ++ (cells ++ trailerCmds))
  | .hm1 => headerCmds ++ (cells ++ trailerCmds)
  | .hs1 => headerCmds.drop 1 ++ (cells ++ trailerCmds)
  | .hm2 => headerCmds.drop 2 ++ (cells ++ trailerCmds)
  | .hs2 => headerCmds.drop 3 ++ (cells ++ trailerCmds)
  | .bitMark => cells ++ trailerCmds
  | .bitSpace => cells.drop 1 ++ trailerCmds
  | .trailMark => trailerCmds
  | .trailSpace => trailerCmds.drop 1

/-- The commands that `ENC` has still to issue: the outstanding one is issued already (R135). -/
def Encoder.owed (e : Encoder) : List EmitCmd := if e.port.isSome then e.toDo.tail else e.toDo

/-! The decoder as a function (R112, R113), for any predicate, mode and tag. -/

/-- `MarkOk` (R106). -/
def markOkRef (m : Role → Nat → Nat → Bool) (mode : BitMarkMode) (d : Nat) : Bool :=
  match mode with
  | .mark => m .mark d 600
  | .spaceLegacy => m .space d 600
  | .skip => true

/-- `cls` (R113): the bit a space stands for. -/
def spaceBitRef (m : Role → Nat → Nat → Bool) (d : Nat) : Option Bool :=
  if m .space d 1690 then some true else if m .space d 600 then some false else none

/-- The four header checks (R113). -/
def headerOkRef (m : Role → Nat → Nat → Bool) (cap : Nat → Nat) : Bool :=
  m .mark (cap 1) 3050 && m .space (cap 2) 3050 && m .mark (cap 3) 3050 && m .space (cap 4) 4350

/-- Bit cell `i` is sound (R113). -/
def cellOkRef (m : Role → Nat → Nat → Bool) (mode : BitMarkMode) (cap : Nat → Nat) (i : Nat) : Bool :=
  markOkRef m mode (cap (5 + 2 * i)) && (spaceBitRef m (cap (6 + 2 * i))).isSome

/-- The payload: the sum over the cells of the bit times `2 ^ (111 - i)` (R113). -/
def payloadRef (m : Role → Nat → Nat → Bool) (cap : Nat → Nat) : Nat :=
  ((List.range 112).map fun i => if spaceBitRef m (cap (6 + 2 * i)) = some true then 2 ^ (111 - i) else 0).sum

/-- `Decode(CAP_N, CAP)` (R113): the failing bit cell is the least one. -/
def decodeRef (m : Role → Nat → Nat → Bool) (mode : BitMarkMode) (tag : Nat) (count : Nat) (cap : Nat → Nat) :
    Verdict :=
  if count ≠ 230 then .noMatch .length
  else if !headerOkRef m cap then .noMatch .header
  else
    match (List.range 112).find? fun i => !cellOkRef m mode cap i with
    | some i => .noMatch (.bit (BitVec.ofNat 7 i))
    | none => .isMatch (BitVec.ofNat 112 (payloadRef m cap)) 112 tag

/-- A group of queries and whether the decode goes on after it. -/
abbrev QueryPart := List Query × Bool

/-- CAPREAD of one index and MATCH of what it returned (R112). -/
def readMatchRef (m : Role → Nat → Nat → Bool) (cap : Nat → Nat) (idx : Nat) (r : Role) (nominal : Nat) : QueryPart :=
  ([.capRead (BitVec.ofNat 8 idx) (cap idx), .matchDur r (cap idx) nominal (m r (cap idx) nominal)],
    m r (cap idx) nominal)

/-- The queries about the mark of cell `i` (R106, R112). -/
def markPartRef (m : Role → Nat → Nat → Bool) (mode : BitMarkMode) (cap : Nat → Nat) (i : Nat) : QueryPart :=
  match mode with
  | .mark => readMatchRef m cap (5 + 2 * i) .mark 600
  | .spaceLegacy => readMatchRef m cap (5 + 2 * i) .space 600
  | .skip => ([.capRead (BitVec.ofNat 8 (5 + 2 * i)) (cap (5 + 2 * i))], true)

/-- The queries about the space of cell `i`: the second MATCH only if the first said no (R107, R112). -/
def spacePartRef (m : Role → Nat → Nat → Bool) (cap : Nat → Nat) (i : Nat) : QueryPart :=
  let s := cap (6 + 2 * i)
  if m .space s 1690 then
    ([.capRead (BitVec.ofNat 8 (6 + 2 * i)) s, .matchDur .space s 1690 true], true)
  else
    ([.capRead (BitVec.ofNat 8 (6 + 2 * i)) s, .matchDur .space s 1690 false,
      .matchDur .space s 600 (m .space s 600)], m .space s 600)

/-- The queries up to the first part after which the decode does not go on (R112, R155). -/
def cutAfterFailure : List QueryPart → List Query
  | [] => []
  | (q, ok) :: rest => if ok then q ++ cutAfterFailure rest else q

/-- The queries of one DECODE, in order (R112). -/
def queriesRef (m : Role → Nat → Nat → Bool) (mode : BitMarkMode) (count : Nat) (cap : Nat → Nat) : List Query :=
  if count ≠ 230 then []
  else cutAfterFailure
    ([readMatchRef m cap 1 .mark 3050, readMatchRef m cap 2 .space 3050, readMatchRef m cap 3 .mark 3050,
        readMatchRef m cap 4 .space 4350]
      ++ (List.range 112).flatMap fun i => [markPartRef m mode cap i, spacePartRef m cap i])

/-- MP1 of R139. -/
def MP1 (m : Role → Nat → Nat → Bool) : Prop :=
  ∀ r n, n = 3050 ∨ n = 4350 ∨ n = 600 ∨ n = 1690 → m r n n = true

/-- MP2 of R139. -/
def MP2 (m : Role → Nat → Nat → Bool) : Prop := m .space 2000 600 = false ∧ m .space 2000 1690 = false

/-- MP3 of R139. -/
def MP3 (m : Role → Nat → Nat → Bool) : Prop := m .space 600 1690 = false

/-- The operand of a MARK or SPACE command. -/
def EmitCmd.interval : EmitCmd → Option Nat
  | .setCarrier _ => none
  | .mark d => some d
  | .space d => some d

/-- `Loop(T, g)`: the gap, then the operands of the MARK and SPACE commands but for the last command (R115, D25). -/
def loopOf (trace : List EmitCmd) (gap : Nat) : List Nat := gap :: trace.dropLast.filterMap EmitCmd.interval

/-! What a claim says is unchanged. -/

/-- The capture buffer reads as before at every index, and its count is as before. -/
def State.SameBuffer (s t : State) : Prop :=
  (∀ a : Nat, t.capture.cells.read a = s.capture.cells.read a) ∧ t.capture.count = s.capture.count

/-- The record `RES_VALUE`, `RES_BITS`, `RES_TAG` and `RES_VALID` are as before (R156). -/
def State.SameRecord (s t : State) : Prop :=
  t.res.value = s.res.value ∧ t.res.bits = s.res.bits ∧ t.res.tag = s.res.tag ∧ t.res.valid = s.res.valid

/-- What CAPTURE holds reads as before, the marks of what was changed under a DECODE among it (log 11). -/
def State.SameCapture (s t : State) : Prop :=
  s.SameBuffer t ∧ t.capture.dirty = s.capture.dirty ∧ t.capture.countLow = s.capture.countLow

/-- Nothing of the build, `ENC`, EMITTER, HOST or the buffer has changed: what a step of `DEC` leaves alone. -/
def State.SameOutsideDecoder (s t : State) : Prop :=
  t.build = s.build ∧ t.enc = s.enc ∧ t.emitter = s.emitter ∧ t.hostPort = s.hostPort ∧ s.SameCapture t

/-- Nothing of the build, `DEC`, its results, HOST or CAPTURE has changed: what a step of `ENC` leaves alone. -/
def State.SameOutsideEncoder (s t : State) : Prop :=
  t.build = s.build ∧ t.dec = s.dec ∧ t.res = s.res ∧ t.hostPort = s.hostPort ∧ t.draws = s.draws ∧ s.SameCapture t

/-- Nothing of the build, the block, EMITTER, HOST or the draws has changed: what a move of CAPTURE's own leaves alone. -/
def State.SameOutsideCapture (s t : State) : Prop :=
  t.build = s.build ∧ t.enc = s.enc ∧ t.dec = s.dec ∧ t.res = s.res ∧ t.emitter = s.emitter
    ∧ t.hostPort = s.hostPort ∧ t.draws = s.draws

/-- No query is outstanding and nothing of a step is done: `DEC` is between two of its steps. -/
def Decoder.Fresh (d : Decoder) : Prop :=
  d.capPort = none ∧ d.matchPort = none ∧ d.entry = none ∧ d.zeroTest = false

/-! Scripts that let an operation run to its end. -/

/-- ENCODE of width `n`: HOST's word is looked at, then each of `2n + 7` commands is issued and completed (R96). -/
def encodeScript (n : Nat) : List Act := .host :: (List.replicate (2 * n + 7) [Act.enc, Act.emitter]).flatten

/-- DECODE: HOST's word is looked at, then 569 rounds in which `DEC`, CAPTURE and MATCHER each get a move: one for
`D_LEN`, two for each header segment and each bit mark, three for each bit space. -/
def decodeScript : List Act := .host :: (List.replicate 569 [Act.dec, Act.capture, Act.matcher]).flatten

/-! The invariant. -/

/-- The phases in which a bit cell is in progress. -/
def EncPhase.inCell (p : EncPhase) : Bool := p = .bitMark || p = .bitSpace

/-- `ENC` is sound: the count is in range, at least 1 inside a bit cell (R15, R85, R86), 0 in the trailer; and a command
outstanding is the one of the phase, in which it is held (R13, R27). -/
abbrev Encoder.Ok (b : Build) (e : Encoder) : Prop :=
  e.cnt.toNat ≤ 112
    ∧ (e.phase.inCell = true → 1 ≤ e.cnt.toNat)
    ∧ (e.phase = .trailMark ∨ e.phase = .trailSpace → e.cnt = 0)
    ∧ (e.port = none ∨ e.port = e.command.map (EmitCmd.word b))
    ∧ (e.phase = .idle → e.port = none)

/-- The invariants of R30, and R18, R19 with them; while the header is matched the cell number and the accumulator are
still the 0 of R103. -/
abbrev Decoder.InRange (d : Decoder) : Prop :=
  (d.state = .hdr → 1 ≤ d.idx.toNat ∧ d.idx.toNat ≤ 4 ∧ d.i = 0 ∧ d.acc = 0)
    ∧ (d.state = .bitm → d.idx.toNat = 5 + 2 * d.i.toNat ∧ d.i.toNat ≤ 111 ∧ d.acc.toNat < 2 ^ d.i.toNat)
    ∧ (d.state = .bits → d.idx.toNat = 6 + 2 * d.i.toNat ∧ d.i.toNat ≤ 111 ∧ d.acc.toNat < 2 ^ d.i.toNat)

/-- A step of `DEC` that reads an entry is in progress. -/
def DecState.scanning (d : DecState) : Bool := d = .hdr || d = .bitm || d = .bits

/-- The queries of `DEC` are sound: at most one is outstanding (R49 (d)), a CAPREAD is of `DEC_IDX` before the entry is
known, and a MATCH is the one of the step; nothing is left of a step while no entry is being examined. -/
abbrev Decoder.PortsOk (b : Build) (d : Decoder) : Prop :=
  (d.state.scanning = false → d.capPort = none ∧ d.matchPort = none ∧ d.entry = none)
    ∧ (d.capPort = none ∨ (d.capPort = some d.idx ∧ d.matchPort = none ∧ d.entry = none))
    ∧ (d.matchPort = none ∨
        d.matchPort = d.entry.bind fun x => (d.matchReq Config.bitMarkMode x).map (MatchReq.word b))
    ∧ (d.zeroTest = true → d.state = .bits ∧ d.entry.isSome = true)

/-- The outcome registers are sound: a valid record says 112 and this protocol (R24), a match has left a valid record
(R23), a bit failure names a cell (R22). -/
abbrev Result.Ok (tag : Nat) (r : Result) : Prop :=
  (r.valid = true → r.bits = 112 ∧ r.tag = tag)
    ∧ (r.status = .stMatch → r.valid = true)
    ∧ (r.status = .stNoMatchBit → r.errIdx.toNat ≤ 111)

/-- The capture buffer is canonical; while entries are read the count is 230 unless the host broke its duty (R46, R178);
and while `DEC` is busy the count is not below the least one that was marked. -/
abbrev State.CaptureOk (s : State) : Prop :=
  s.capture.cells.wf = true
    ∧ (s.dec.state.scanning = true → s.capture.countLow = none → s.capture.count = 230)
    ∧ (s.decBusy = true → s.capture.countLow.getD 0 ≤ s.capture.count)

/-- The build is legal and every number held in a register, on the wire list or in the buffer fits the width that the
build gives it (R24, R26, R64, D16). -/
abbrev State.Sized (s : State) : Prop :=
  s.build.legal = true
    ∧ (∀ c ∈ s.capture.cells, c.2 < 2 ^ s.build.durW)
    ∧ s.capture.count < 2 ^ s.build.cntW
    ∧ s.res.tag < 2 ^ s.build.tagW
    ∧ s.emitter.carrier < 2 ^ s.build.durW
    ∧ (∀ x ∈ s.emitter.wire, x.dur < 2 ^ s.build.durW)
    ∧ s.dec.entry.getD 0 < 2 ^ s.build.durW

/-- The invariant of the machine. -/
structure State.Inv (s : State) : Prop where
  sized : s.Sized
  enc : s.enc.Ok s.build
  range : s.dec.InRange
  ports : s.dec.PortsOk s.build
  res : s.res.Ok s.tag
  capture : s.CaptureOk

end Sys2Proof.Machine
end

