-- ==== Sys2Proof/Certificates/Slice0/Obligations.lean ====
section
/-! DEFINITION. The statements about the model, from the numbered rules of `spec/`. -/

open Sys2Proof Sys2Proof.Machine

/-! Encodings. -/

/-- In every build, decoding the word of a well-formed instruction gives the instruction back (`spec/30_encoding.md` sections 2 to 4). -/
def Obligations.DecodeOfEncodedInstruction : Prop :=
  ∀ (b : Build) (i : Instr), i.wellFormed b = true → decode b (encode b i) = .ok i

/-- But for DECODE, whose low bits are ignored, every word that decodes is the word of what it decodes to: no word has a
second meaning and no bit is dropped (`spec/30_encoding.md` sections 2 to 4). -/
def Obligations.EncodeOfDecodedWord : Prop :=
  ∀ (b : Build) (w : PortWord) (i : Instr), decode b w = .ok i → i ≠ .decode → encode b i = w

/-- Words the spec writes out decode to what it says they are (`spec/95_test_vectors.md` section 3); and in a build with
`DUR_W = 13` the format E word has 15 bits and `eop` is its two top bits (R64). -/
def Obligations.SpecWordsDecode : Prop :=
  decode .default (.host 0x708000000000000000000000000000) = .ok (.encode 0x8000000000000000000000000000 112)
    ∧ decode .default (.host 0x030000000000000000000000000005) = .ok (.encode 5 3)
    ∧ decode .default (.host 0x800000000000000000000000000000) = .ok .decode
    ∧ decode .default (.emitter 0x20026) = .ok (.setCarrier 38)
    ∧ decode .default (.emitter 0x10BEA) = .ok (.mark 3050)
    ∧ decode .default (.emitter 0x0069A) = .ok (.space 1690)
    ∧ decode .default (.emitter 0x00000) = .ok (.space 0)
    ∧ decode .default (.capture 4) = .ok (.capRead 4)
    ∧ decode .default (.matcher 0x102580258) = .ok (.matchDur .mark 600 600)
    ∧ decode .default (.matcher 0x007D00258) = .ok (.matchDur .space 2000 600)
    ∧ decode ⟨13, 16, 8⟩ (.emitter 0b100000000100110) = .ok (.setCarrier 38)
    ∧ decode ⟨13, 16, 8⟩ (.emitter 0b010001001011000) = .ok (.mark 600)
    ∧ decode ⟨13, 16, 8⟩ (.emitter 0b001000011111110) = .ok (.space 4350)

/-- Format H is read by bit 119 alone: with the bit set it is DECODE whatever bits 118:0 are; else it is ENCODE with
`bitWidth` in 118:112 and `payload` in 111:0 (R61 to R63). -/
def Obligations.HostWordReadByBit119 : Prop :=
  ∀ (b : Build) (w : HostWord),
    decode b (.host w) =
      if 2 ^ 119 ≤ w.toNat then .ok .decode
      else .ok (.encode (BitVec.ofNat 112 w.toNat) (BitVec.ofNat 7 (w.toNat / 2 ^ 112)))

/-- The one reserved encoding is format E with `eop = 3`: in every build it is rejected by name (R70). That beside it only
a number wider than its port is rejected, and by what name, is the model's reading of the fixed widths of R71 (log 14);
and so is the width `1 + 2 * DUR_W` of the MATCH port, of which R66 and R71 give only the 33 bits of the default (log 1). -/
def Obligations.OnlyReservedEopIsRejected : Prop :=
  (∀ (b : Build) (w : PortWord) (r : DecodeReject), decode b w = .error r →
      (r = .reservedEmitterOp ∧ ∃ x : Nat, w = .emitter x ∧ x / 2 ^ b.durW = 3)
        ∨ (r = .wordTooWide ∧ 2 ^ w.port.width b ≤ w.toNat))
    ∧ (∀ (b : Build) (x : Nat), x / 2 ^ b.durW = 3 → decode b (.emitter x) = .error .reservedEmitterOp)
    ∧ ∀ (b : Build) (w : PortWord), 2 ^ w.port.width b ≤ w.toNat → decode b w = .error .wordTooWide

/-! The step. -/

/-- When the word of the next move decodes to an instruction, the step is that instruction's meaning on the state with
the move taken from the script; nothing else stands around it. The script is the model's choice (log 7). -/
def Obligations.StepRunsDecodedInstruction : Prop :=
  ∀ (s : State) (a : Act) (rest : List Act) (w : PortWord) (i : Instr),
    s.script = a :: rest → s.fetch a = some w → decode s.build w = .ok i → step s = exec i { s with script := rest }

/-- A word that is placed on its port is the next thing the machine runs, from every state and in every build; and so is
a word of the opcode table in the default build, whose words the table gives. That a word is placed so is the model's
own means (log 13). -/
def Obligations.PlacedWordRunsNext : Prop :=
  (∀ (s : State) (w : PortWord) (i : Instr), decode s.build w = .ok i →
      step (s.place w) = exec i { s.place w with script := s.script })
    ∧ ∀ (s : State) (nbits w : Nat) (i : Instr), s.build = .default → decodeTableWord nbits w = some i →
      step (s.withFetchWord nbits w) = exec i { s.withFetchWord nbits w with script := s.script }

/-- A format E word with `eop = 3` on the emitter port is refused by name: the spec gives it no effect (R70 (c)). The
refusal is the model's reading (log 14). -/
def Obligations.ReservedEopIsRefused : Prop :=
  ∀ (s : State) (rest : List Act) (x : Nat),
    s.script = .emitter :: rest → s.enc.port = some x → x / 2 ^ s.build.durW = 3 →
      step s = .refused (.undecodableWord .reservedEmitterOp)

/-- What HOST does on its own: a presented word is pending, a withdrawn one is lost (R179). That a presented word takes
the place of one that is pending already is the model's choice (log 12; R179 says only that a pending word stays until it
is accepted or withdrawn), and so is that with no move to make the machine stands still (log 7). -/
def Obligations.HostPortActs : Prop :=
  (∀ (s : State) (rest : List Act) (w : HostWord), s.script = .present w :: rest →
      step s = .next { s with hostPort := some w, script := rest })
    ∧ (∀ (s : State) (rest : List Act), s.script = .withdraw :: rest →
      step s = .next { s with hostPort := none, script := rest })
    ∧ ∀ s : State, s.script = [] → step s = .next s

/-! ENCODE and the encoder. -/

/-- R81. Acceptance copies the payload and the width and moves to `E_CARRIER`, issues no command and writes nothing else;
while `ENC` is busy the word stays pending and has no effect. -/
def Obligations.EncodeIsAccepted : Prop :=
  (∀ (p : Payload) (n : BitNo) (s : State), s.enc.phase = .idle → n.toNat ≤ 112 →
      ∃ t : State, exec (.encode p n) s = .next t
        ∧ t.enc.data = p ∧ t.enc.cnt = n ∧ t.enc.phase = .carrier ∧ t.encBusy = true
        ∧ t.enc.trace = s.enc.trace ∧ t.enc.port = s.enc.port ∧ t.emitter = s.emitter
        ∧ t.hostPort = none ∧ t.dec = s.dec ∧ t.res = s.res ∧ t.draws = s.draws ∧ t.script = s.script
        ∧ s.SameCapture t ∧ t.build = s.build)
    ∧ ∀ (p : Payload) (n : BitNo) (s : State), s.enc.phase ≠ .idle → exec (.encode p n) s = .next s

/-- R93. An ENCODE of width 113 to 127 presented to an idle encoder is refused by name. -/
def Obligations.EncodeOverCapacityIsRefused : Prop :=
  ∀ (p : Payload) (n : BitNo) (s : State), s.enc.phase = .idle → 112 < n.toNat →
    exec (.encode p n) s = .refused (.encodeWidthUndefined n)

/-- What an earlier ENCODE left in `ENC_DATA` and `ENC_CNT` has no effect on the next one (R10, R95). -/
def Obligations.EncodeForgetsOldScratch : Prop :=
  ∀ (p q : Payload) (n c : BitNo) (s : State), s.enc.phase = .idle →
    exec (.encode p n) { s with enc := { s.enc with data := q, cnt := c } } = exec (.encode p n) s

/-- R82 to R88. One step of `ENC`, its command issued and completed: which command each phase issues, the phase that
follows, `ENC_CNT`, and at the end of the trace the emitter off and `ENC_BUSY` 0. -/
def Obligations.EncoderStepPerPhase : Prop :=
  ∀ (s : State) (rest : List Act),
    s.build.legal = true → s.script = .enc :: .emitter :: rest → s.enc.port = none → s.enc.phase ≠ .idle →
    (s.enc.phase.inCell = true → 1 ≤ s.enc.cnt.toNat) →
      ∃ (t : State) (c : EmitCmd), Host.Core.run Sys2Proof.core 2 s = .next t
        ∧ t.enc.trace = s.enc.trace ++ [c] ∧ t.enc.port = none ∧ t.enc.data = s.enc.data
        ∧ t.enc.cnt.toNat = (if s.enc.phase = .bitSpace then s.enc.cnt.toNat - 1 else s.enc.cnt.toNat)
        ∧ (s.enc.phase = .carrier → c = .setCarrier 38 ∧ t.enc.phase = .hm1)
        ∧ (s.enc.phase = .hm1 → c = .mark 3050 ∧ t.enc.phase = .hs1)
        ∧ (s.enc.phase = .hs1 → c = .space 3050 ∧ t.enc.phase = .hm2)
        ∧ (s.enc.phase = .hm2 → c = .mark 3050 ∧ t.enc.phase = .hs2)
        ∧ (s.enc.phase = .hs2 → c = .space 4350
            ∧ t.enc.phase = if s.enc.cnt.toNat = 0 then .trailMark else .bitMark)
        ∧ (s.enc.phase = .bitMark → c = .mark 600 ∧ t.enc.phase = .bitSpace)
        ∧ (s.enc.phase = .bitSpace →
            c = .space (if s.enc.data.getLsbD (s.enc.cnt.toNat - 1) then 1690 else 600)
            ∧ t.enc.phase = if s.enc.cnt.toNat - 1 = 0 then .trailMark else .bitMark)
        ∧ (s.enc.phase = .trailMark → c = .mark 600 ∧ t.enc.phase = .trailSpace)
        ∧ (s.enc.phase = .trailSpace →
            c = .space 0 ∧ t.enc.phase = .idle ∧ t.encBusy = false ∧ t.emitter.on = false)
        ∧ s.SameOutsideEncoder t ∧ t.script = rest

/-- R27, R91. Between issue and completion the phase is held, `ENC_BUSY` stays 1, and `ENC` issues nothing more. -/
def Obligations.OutstandingCommandHoldsPhase : Prop :=
  (∀ (s : State) (rest : List Act), s.script = .enc :: rest → s.enc.phase ≠ .idle → s.enc.port = none →
      ∃ t : State, step s = .next t ∧ t.enc.phase = s.enc.phase ∧ t.enc.cnt = s.enc.cnt
        ∧ t.enc.data = s.enc.data ∧ t.encBusy = true ∧ t.enc.port.isSome = true ∧ t.emitter = s.emitter
        ∧ s.SameOutsideEncoder t)
    ∧ ∀ (s : State) (rest : List Act), s.script = .enc :: rest → s.enc.port.isSome = true →
      step s = .next { s with script := rest }

/-- R132. MARK `d` turns the emitter on for `d` µs at the carrier set before, and completes. That MARK 0, which the block
never issues and of which R132 does not speak, puts an interval of length 0 on the wire is the model's choice (log 9). -/
def Obligations.MarkTurnsEmitterOn : Prop :=
  ∀ (d : Nat) (s : State), ∃ t : State, exec (.mark d) s = .next t
    ∧ t.emitter.on = true ∧ t.emitter.carrier = s.emitter.carrier
    ∧ t.emitter.wire = s.emitter.wire ++ [⟨.mark, d⟩] ∧ t.enc.port = none

/-- R133. SPACE `d` with `d > 0` turns the emitter off for `d` µs, and completes. -/
def Obligations.SpaceTurnsEmitterOff : Prop :=
  ∀ (d : Nat) (s : State), 0 < d → ∃ t : State, exec (.space d) s = .next t
    ∧ t.emitter.on = false ∧ t.emitter.carrier = s.emitter.carrier
    ∧ t.emitter.wire = s.emitter.wire ++ [⟨.space, d⟩] ∧ t.enc.port = none

/-- R134. SPACE 0 turns the emitter off whatever happened before, completes, and adds no interval to the frame. -/
def Obligations.SpaceZeroForcesOff : Prop :=
  ∀ s : State, ∃ t : State, exec (.space 0) s = .next t
    ∧ t.emitter.on = false ∧ t.emitter.carrier = s.emitter.carrier ∧ t.emitter.wire = s.emitter.wire
    ∧ t.enc.port = none

/-- R131. SETCARRIER `k` sets the frequency, produces no interval and leaves the level, and completes. -/
def Obligations.SetCarrierSetsFrequency : Prop :=
  ∀ (k : Nat) (s : State), ∃ t : State, exec (.setCarrier k) s = .next t
    ∧ t.emitter.carrier = k ∧ t.emitter.on = s.emitter.on ∧ t.emitter.wire = s.emitter.wire ∧ t.enc.port = none

/-- The frame of MARK, SPACE and SETCARRIER: `DEC`, its results, HOST and the capture buffer are unchanged, and so are
the payload and the trace; `ENC_CNT` changes in `E_BIT_SPACE` alone (R15, R90). -/
def Obligations.EmitterCommandFrame : Prop :=
  ∀ (c : EmitCmd) (s : State), ∃ t : State, exec c.toInstr s = .next t
    ∧ s.SameOutsideEncoder t ∧ t.enc.data = s.enc.data ∧ t.enc.trace = s.enc.trace ∧ t.script = s.script
    ∧ (s.enc.phase ≠ .bitSpace → t.enc.cnt = s.enc.cnt)

/-- R96. `ENC_PHASE` moves only along the arrows of the encoder, each by the completion of the command outstanding, and
out of `E_IDLE` only by the acceptance of an ENCODE. -/
def Obligations.EncoderTransitionRelation : Prop :=
  ∀ (s t : State) (a : Act) (rest : List Act), s.script = a :: rest → a ≠ .reset → step s = .next t →
    t.enc.phase ≠ s.enc.phase →
      (s.enc.phase = .idle ∧ t.enc.phase = .carrier ∧ a = .host ∧ t.enc.cnt.toNat ≤ 112)
      ∨ (a = .emitter ∧ s.enc.port.isSome = true
          ∧ ((s.enc.phase = .carrier ∧ t.enc.phase = .hm1)
            ∨ (s.enc.phase = .hm1 ∧ t.enc.phase = .hs1)
            ∨ (s.enc.phase = .hs1 ∧ t.enc.phase = .hm2)
            ∨ (s.enc.phase = .hm2 ∧ t.enc.phase = .hs2)
            ∨ (s.enc.phase = .hs2 ∧ t.enc.phase = if s.enc.cnt = 0 then .trailMark else .bitMark)
            ∨ (s.enc.phase = .bitMark ∧ t.enc.phase = .bitSpace)
            ∨ (s.enc.phase = .bitSpace ∧ t.enc.phase = if s.enc.cnt - 1 = 0 then .trailMark else .bitMark)
            ∨ (s.enc.phase = .trailMark ∧ t.enc.phase = .trailSpace)
            ∨ (s.enc.phase = .trailSpace ∧ t.enc.phase = .idle)))

/-- While an ENCODE is in progress, what is issued and what is owed together never change, whoever moves: the encoder
issues its trace, in order, and nothing else (R89). -/
def Obligations.EncoderConservesItsTrace : Prop :=
  ∀ (s t : State) (a : Act) (rest : List Act), s.Inv → s.script = a :: rest → a ≠ .reset → s.enc.phase ≠ .idle →
    step s = .next t → t.enc.trace ++ t.enc.owed = s.enc.trace ++ s.enc.owed

/-- An idle encoder owes nothing and issues nothing, and an accepted ENCODE owes `Trace(P, n)` (R89). -/
def Obligations.AcceptedEncodeOwesItsTrace : Prop :=
  (∀ (p : Payload) (n : BitNo) (s : State), s.Inv → s.enc.phase = .idle → n.toNat ≤ 112 →
      s.enc.owed = [] ∧ ∃ t : State, exec (.encode p n) s = .next t ∧ t.enc.owed = traceOf p n.toNat)
    ∧ ∀ (s t : State), s.enc.phase = .idle → step s = .next t → t.enc.trace = s.enc.trace

/-- An ENCODE run from acceptance to `E_IDLE` issues exactly `Trace(P, n)` (R89) and puts exactly the frame on the wire
(R67); the emitter is off at 38 kHz at the end, and `DEC` and its results are untouched (R80, R90). -/
def Obligations.EncodeRunIssuesItsTrace : Prop :=
  ∀ (p : Payload) (n : BitNo) (s : State), s.build.legal = true → s.enc.phase = .idle → s.enc.port = none →
    n.toNat ≤ 112 → s.hostPort = some (encodeWordH p n) → s.script = encodeScript n.toNat →
      ∃ t : State, Host.Core.run Sys2Proof.core (4 * n.toNat + 15) s = .next t
        ∧ t.enc.trace = s.enc.trace ++ traceOf p n.toNat
        ∧ t.emitter.wire = s.emitter.wire ++ frameOf p n.toNat
        ∧ t.emitter.on = false ∧ t.emitter.carrier = 38
        ∧ t.enc.phase = .idle ∧ t.enc.cnt = 0 ∧ t.enc.data = p ∧ t.enc.port = none
        ∧ t.hostPort = none ∧ t.dec = s.dec ∧ t.res = s.res ∧ s.SameCapture t ∧ t.build = s.build ∧ t.script = []

/-- The payload bits at and above the width have no effect on the trace or on the wire: two payloads that agree below the
width run to the same end of both (R94). -/
def Obligations.EncodeIgnoresHighPayloadBits : Prop :=
  ∀ (p q : Payload) (n : BitNo) (s : State), s.build.legal = true → s.enc.phase = .idle → s.enc.port = none →
    n.toNat ≤ 112 → p.toNat % 2 ^ n.toNat = q.toNat % 2 ^ n.toNat → s.script = encodeScript n.toNat →
      ∃ t u : State,
        Host.Core.run Sys2Proof.core (4 * n.toNat + 15) { s with hostPort := some (encodeWordH p n) } = .next t
          ∧ Host.Core.run Sys2Proof.core (4 * n.toNat + 15) { s with hostPort := some (encodeWordH q n) } = .next u
          ∧ t.enc.trace = u.enc.trace ∧ t.emitter.wire = u.emitter.wire

/-- Only the eight commands of R65 are ever issued, in the default build as the words that R65 lists: whatever was issued
before, a step adds no other. -/
def Obligations.OnlyListedWordsAreIssued : Prop :=
  ∀ (s t : State), step s = .next t → ∃ l : List EmitCmd,
    t.enc.trace = s.enc.trace ++ l ∧ l.length ≤ 1 ∧ (∀ c ∈ l, c ∈ issuedCmds)
      ∧ (s.build = .default → ∀ c ∈ l, c.word s.build ∈ issuedWords)

/-! DECODE and the decoder. -/

/-- R101. Acceptance moves `DEC` to `D_LEN` and writes nothing else of the block; while `DEC` is busy the word stays
pending and has no effect. The clause on `broken` is the model's choice (log 11): the marks of what CAPTURE changed are
cleared here, at the synchronisation point of R50. -/
def Obligations.DecodeIsAccepted : Prop :=
  (∀ s : State, s.dec.state = .idle →
      ∃ t : State, exec .decode s = .next t ∧ t.dec = { s.dec with state := .len } ∧ t.decBusy = true
        ∧ t.res = s.res ∧ t.enc = s.enc ∧ t.emitter = s.emitter ∧ s.SameBuffer t ∧ t.build = s.build
        ∧ t.hostPort = none ∧ t.capture.broken = false
        ∧ t.draws = s.draws ∧ t.script = s.script)
    ∧ ∀ s : State, s.dec.state ≠ .idle → exec .decode s = .next s

/-- R102, R103. `D_LEN` compares `CAP_N` with 230 at full width and makes no query: a different count ends the DECODE,
the right one sets index 1, cell 0 and accumulator 0. For a buffer that was changed under the DECODE, see
`BrokenDutyFreesTheResult`. -/
def Obligations.LengthCheckStep : Prop :=
  ∀ (s : State) (rest : List Act), s.script = .dec :: rest → s.dec.state = .len → s.capture.broken = false →
    ∃ t : State, step s = .next t ∧ t.dec.queries = s.dec.queries ∧ t.draws = s.draws ∧ t.script = rest
      ∧ t.dec.capPort = s.dec.capPort ∧ t.dec.matchPort = s.dec.matchPort ∧ s.SameOutsideDecoder t
      ∧ s.SameRecord t ∧ t.res.errIdx = s.res.errIdx
      ∧ (s.capture.count ≠ 230 →
          t.dec.state = .idle ∧ t.res.status = .stNoMatchLength ∧ t.decBusy = false
            ∧ t.dec.idx = s.dec.idx ∧ t.dec.i = s.dec.i ∧ t.dec.acc = s.dec.acc)
      ∧ (s.capture.count = 230 →
          t.dec.state = .hdr ∧ t.dec.idx = 1 ∧ t.dec.i = 0 ∧ t.dec.acc = 0 ∧ t.res.status = s.res.status)

/-- R104. One header segment: CAPREAD of `DEC_IDX`, one MATCH with the role and the duration of segment `k`; on a yes the
index moves on, after segment 3 to the bit loop; on a no the DECODE ends with NoMatch(header). -/
def Obligations.HeaderSegmentStep : Prop :=
  ∀ (s : State) (rest : List Act) (k : Nat), k < 4 → s.dec.state = .hdr → s.dec.idx.toNat = 1 + k → s.dec.Fresh →
    s.Sized → 1 + k < s.capture.count → s.capture.broken = false →
    s.script = .dec :: .capture :: .dec :: .matcher :: rest →
      let a := s.capture.cells.read (1 + k)
      let role : Role := if k % 2 = 0 then .mark else .space
      let nominal : Nat := if k = 3 then 4350 else 3050
      ∃ t : State, Host.Core.run Sys2Proof.core 4 s = .next t
        ∧ t.dec.queries =
            s.dec.queries ++ [.capRead s.dec.idx a, .matchDur role a nominal (matchTol role a nominal)]
        ∧ t.dec.Fresh ∧ t.dec.i = s.dec.i ∧ t.dec.acc = s.dec.acc ∧ s.SameOutsideDecoder t ∧ s.SameRecord t
        ∧ t.res.errIdx = s.res.errIdx ∧ t.draws = s.draws ∧ t.script = rest
        ∧ (if matchTol role a nominal = true then
            t.dec.idx.toNat = 2 + k ∧ t.dec.state = (if k = 3 then .bitm else .hdr) ∧ t.res.status = s.res.status
          else t.dec.state = .idle ∧ t.dec.idx = s.dec.idx ∧ t.res.status = .stNoMatchHeader)

/-- R106. The mark of bit cell `DEC_I`: it is read in every mode, checked in the role of the mode or not at all in mode
SKIP; on a no the DECODE ends with NoMatch(bit `DEC_I`). -/
def Obligations.BitMarkStep : Prop :=
  ∀ (s : State) (rest : List Act), s.dec.state = .bitm → s.dec.Fresh →
    s.Sized → s.dec.idx.toNat < s.capture.count → s.capture.broken = false →
    s.script = .dec :: .capture :: .dec :: .matcher :: rest →
      let m := s.capture.cells.read s.dec.idx.toNat
      let ok := markOkRef matchTol Config.bitMarkMode m
      ∃ t : State, Host.Core.run Sys2Proof.core 4 s = .next t
        ∧ t.dec.queries = s.dec.queries ++ (.capRead s.dec.idx m ::
            match Config.bitMarkMode with
            | .mark => [.matchDur .mark m 600 ok]
            | .spaceLegacy => [.matchDur .space m 600 ok]
            | .skip => [])
        ∧ t.dec.Fresh ∧ t.dec.i = s.dec.i ∧ t.dec.acc = s.dec.acc ∧ s.SameOutsideDecoder t ∧ s.SameRecord t
        ∧ t.draws = s.draws ∧ t.script = rest
        ∧ (if ok = true then
            t.dec.idx = s.dec.idx + 1 ∧ t.dec.state = .bits ∧ t.res.status = s.res.status
              ∧ t.res.errIdx = s.res.errIdx
          else t.dec.state = .idle ∧ t.dec.idx = s.dec.idx ∧ t.res.status = .stNoMatchBit
            ∧ t.res.errIdx = s.dec.i)

/-- R107, R108, R109. The space of bit cell `DEC_I`: the one-space is tested first, the zero-space only after a no; a bit
is shifted in at bit 0, after cell 111 all six registers of the success are written together; if neither space matches
the DECODE ends with NoMatch(bit `DEC_I`). -/
def Obligations.BitSpaceStep : Prop :=
  ∀ (s : State) (rest : List Act), s.dec.state = .bits → s.dec.Fresh →
    s.Sized → s.dec.idx.toNat < s.capture.count → s.capture.broken = false →
    let x := s.capture.cells.read s.dec.idx.toNat
    let one := matchTol .space x 1690
    let zero := matchTol .space x 600
    s.script =
      [.dec, .capture, .dec, .matcher] ++ ((if one = true then [] else [.dec, .matcher]) ++ rest) →
      ∃ t : State, Host.Core.run Sys2Proof.core (if one = true then 4 else 6) s = .next t
        ∧ t.dec.queries = s.dec.queries ++ (.capRead s.dec.idx x ::
            if one = true then [.matchDur .space x 1690 true]
            else [.matchDur .space x 1690 false, .matchDur .space x 600 zero])
        ∧ t.dec.Fresh ∧ s.SameOutsideDecoder t ∧ t.draws = s.draws ∧ t.script = rest
        ∧ (if one = true ∨ zero = true then
            t.dec.acc.toNat = (2 * s.dec.acc.toNat + if one = true then 1 else 0) % 2 ^ 112
              ∧ t.dec.idx = s.dec.idx + 1 ∧ t.res.errIdx = s.res.errIdx
              ∧ (if s.dec.i.toNat = 111 then
                  t.dec.state = .idle ∧ t.decBusy = false ∧ t.dec.i = s.dec.i ∧ t.res.value = t.dec.acc
                    ∧ t.res.bits = 112 ∧ t.res.tag = s.tag ∧ t.res.valid = true
                    ∧ t.res.status = .stMatch
                else t.dec.state = .bitm ∧ t.dec.i = s.dec.i + 1 ∧ t.res = s.res)
          else t.dec.state = .idle ∧ t.res.status = .stNoMatchBit ∧ t.res.errIdx = s.dec.i ∧ s.SameRecord t
            ∧ t.dec.acc = s.dec.acc ∧ t.dec.idx = s.dec.idx ∧ t.dec.i = s.dec.i)

/-- R136. CAPREAD of an entry that is present and was not written under the DECODE answers what CAPTURE stored there, and
changes nothing else: no side effect on the buffer. -/
def Obligations.CapReadReturnsTheEntry : Prop :=
  ∀ (i : CapIdx) (s : State), i.toNat < s.capture.count → s.capture.touched i = false →
    ∃ t : State, exec (.capRead i) s = .next t
      ∧ t.dec = { s.dec with
          capPort := none
          entry := some (s.capture.cells.read i.toNat)
          queries := s.dec.queries ++ [.capRead i (s.capture.cells.read i.toNat)] }
      ∧ s.SameOutsideDecoder t ∧ t.res = s.res ∧ t.draws = s.draws ∧ t.script = s.script

/-- A CAPREAD of an index at or above `CAP_N` faults: there is no such entry (R41, R46; log 4). -/
def Obligations.AbsentEntryFaults : Prop :=
  ∀ (i : CapIdx) (s : State), s.capture.count ≤ i.toNat → s.capture.touched i = false →
    exec (.capRead i) s = .fault (.captureEntryAbsent i)

/-- CAPTURE writes a present entry and then answers a CAPREAD of it: while a DECODE is in progress the answer is a free
draw (R51; log 11). With `DEC` idle it is what was written; a CAPREAD outstanding with `DEC` idle is in no run of the
block, and its meaning is the model's choice (log 19). -/
def Obligations.WriteUnderDecodeReadsAnyValue : Prop :=
  ∀ (s : State) (i : CapIdx) (d : Nat) (rest : List Act),
    s.script = .capWrite i.toNat d :: .capture :: rest → s.dec.capPort = some i →
    s.capture.cells.wf = true → i.toNat < s.capture.count → s.capture.touched i = false →
      ∃ t : State, Host.Core.run Sys2Proof.core 2 s = .next t
        ∧ t.dec.entry = some (s.build.asDur (if s.dec.state = .idle then d else Config.freeDur s.draws))

/-- CAPREAD of an entry that was changed under the DECODE answers a free draw and otherwise does what every CAPREAD does:
the buffer and all that is outside `DEC` stay (R51, R136; the draw is the model's free value, log 11). -/
def Obligations.ChangedEntryReadsAnyValue : Prop :=
  ∀ (i : CapIdx) (s : State), s.capture.touched i = true →
    ∃ t : State, exec (.capRead i) s = .next t
      ∧ t.dec = { s.dec with
          capPort := none
          entry := some (s.build.asDur (Config.freeDur s.draws))
          queries := s.dec.queries ++ [.capRead i (s.build.asDur (Config.freeDur s.draws))] }
      ∧ s.SameOutsideDecoder t ∧ t.res = s.res ∧ t.draws = s.draws + 1 ∧ t.script = s.script

/-- A count changed while `DEC` is busy makes every entry free that is absent at the old count or at the new one, and the
entries stay free when the count is set back (R51; log 11). -/
def Obligations.CountChangeMakesEntriesFree : Prop :=
  ∀ (s : State) (i : CapIdx) (n m : Nat) (rest : List Act), s.script = .capCount n :: .capCount m :: .capture :: rest →
    s.dec.state ≠ .idle → s.dec.capPort = some i →
    s.capture.count ≤ i.toNat ∨ s.build.asCount n ≤ i.toNat ∨ s.build.asCount m ≤ i.toNat →
      ∃ t : State, Host.Core.run Sys2Proof.core 3 s = .next t
        ∧ t.dec.entry = some (s.build.asDur (Config.freeDur s.draws))

/-- A DECODE ends whose buffer was changed in any way while it was in progress: its result is a free draw, a success with
any payload or a NoMatch of any reason (R51, R178, U3). That the draw is of the whole outcome, and that it is made even
where the change was of an entry already read or never read, is the model's choice (log 20). -/
def Obligations.BrokenDutyFreesTheResult : Prop :=
  ∀ (s t : State) (a : Act) (rest : List Act), s.script = a :: rest → a ≠ .reset → step s = .next t →
    s.dec.state ≠ .idle → t.dec.state = .idle → s.capture.broken = true →
      ∃ k : Nat, s.draws ≤ k ∧ t.draws = k + 1
        ∧ (Config.freeFailure k = none →
            t.res = ⟨.stMatch, s.res.errIdx, true, Config.freePayload k, 112, s.tag⟩)
        ∧ (Config.freeFailure k = some .length → t.res = { s.res with status := .stNoMatchLength })
        ∧ (Config.freeFailure k = some .header → t.res = { s.res with status := .stNoMatchHeader })
        ∧ ∀ i : BitNo, Config.freeFailure k = some (.bit i) →
            s.SameRecord t ∧ t.res.status = .stNoMatchBit ∧ t.res.errIdx.toNat = i.toNat % 112

/-- R138. MATCH answers `match(role, a, n)` and `DEC` goes on: in the header, at a bit mark and at a bit space as R104,
R106 and R107 say; nothing outside `DEC` and its results changes. What a DECODE reports that ends here is said for a
buffer that was not changed under it; `BrokenDutyFreesTheResult` says the rest. The clause for `D_IDLE` and `D_LEN`, where
no step awaits an answer and no run of the block brings one, is the model's choice (log 19). -/
def Obligations.MatchAnswerDrivesTheStep : Prop :=
  ∀ (r : Role) (a n : Nat) (s : State),
    ∃ t : State, exec (.matchDur r a n) s = .next t
      ∧ t.dec.queries = s.dec.queries ++ [.matchDur r a n (matchTol r a n)] ∧ t.dec.matchPort = none
      ∧ s.SameOutsideDecoder t ∧ t.script = s.script ∧ t.dec.capPort = s.dec.capPort
      ∧ (s.capture.broken = false ∨ t.dec.state ≠ .idle → t.draws = s.draws)
      ∧ (s.dec.state = .idle ∨ s.dec.state = .len →
          t.dec.state = s.dec.state ∧ t.dec.idx = s.dec.idx ∧ t.dec.i = s.dec.i ∧ t.dec.acc = s.dec.acc
            ∧ t.res = s.res)
      ∧ (s.dec.state = .hdr →
          t.dec.i = s.dec.i ∧ t.dec.acc = s.dec.acc ∧
            if matchTol r a n = true then
              t.dec.state = (if s.dec.idx = 4 then .bitm else .hdr) ∧ t.dec.idx = s.dec.idx + 1 ∧ t.res = s.res
            else t.dec.state = .idle ∧ t.dec.idx = s.dec.idx
              ∧ (s.capture.broken = false → t.res = { s.res with status := .stNoMatchHeader }))
      ∧ (s.dec.state = .bitm →
          t.dec.i = s.dec.i ∧ t.dec.acc = s.dec.acc ∧
            if matchTol r a n = true then t.dec.state = .bits ∧ t.dec.idx = s.dec.idx + 1 ∧ t.res = s.res
            else t.dec.state = .idle ∧ t.dec.idx = s.dec.idx
              ∧ (s.capture.broken = false → t.res = { s.res with status := .stNoMatchBit, errIdx := s.dec.i }))
      ∧ (s.dec.state = .bits →
          if matchTol r a n = true then
            t.dec.idx = s.dec.idx + 1
              ∧ t.dec.acc.toNat = (2 * s.dec.acc.toNat + if s.dec.zeroTest = true then 0 else 1) % 2 ^ 112
              ∧ (if s.dec.i.toNat = 111 then
                  t.dec.state = .idle ∧ t.dec.i = s.dec.i
                    ∧ (s.capture.broken = false →
                        t.res = ⟨.stMatch, s.res.errIdx, true, t.dec.acc, 112, s.tag⟩)
                else t.dec.state = .bitm ∧ t.dec.i = s.dec.i + 1 ∧ t.res = s.res)
          else
            t.dec.idx = s.dec.idx ∧ t.dec.i = s.dec.i ∧ t.dec.acc = s.dec.acc
              ∧ (if s.dec.zeroTest = true then
                  t.dec.state = .idle
                    ∧ (s.capture.broken = false → t.res = { s.res with status := .stNoMatchBit, errIdx := s.dec.i })
                else t.dec.state = .bits ∧ t.dec.zeroTest = true ∧ t.res = s.res))

/-- R156, R109, R24. Every DECODE ends in one step with one outcome, success, which writes the whole record at once, or a
NoMatch, which leaves the record as it was and writes `DEC_ERR_IDX` only for a bit failure. Over a buffer that was not
changed under the DECODE the outcome is that of the step, and a NoMatch leaves the scratch registers too. That the first
part holds over a changed buffer as well, where R51 and U3 give the run no defined result, is the model's choice
(log 20). -/
def Obligations.DecodeEndsWithOneOutcome : Prop :=
  ∀ (s t : State) (a : Act) (rest : List Act), s.script = a :: rest → a ≠ .reset → step s = .next t →
    s.dec.state ≠ .idle → t.dec.state = .idle →
      ((t.res.status = .stMatch ∧ t.res.valid = true ∧ t.res.bits = 112 ∧ t.res.tag = s.tag
            ∧ t.res.errIdx = s.res.errIdx)
          ∨ (s.SameRecord t
            ∧ (((t.res.status = .stNoMatchLength ∨ t.res.status = .stNoMatchHeader) ∧ t.res.errIdx = s.res.errIdx)
              ∨ t.res.status = .stNoMatchBit)))
        ∧ (s.capture.broken = false →
          (s.dec.state = .bits ∧ s.dec.i.toNat = 111 ∧ t.res.status = .stMatch ∧ t.res.value = t.dec.acc)
            ∨ (s.SameRecord t ∧ t.dec.acc = s.dec.acc ∧ t.dec.idx = s.dec.idx ∧ t.dec.i = s.dec.i
              ∧ ((s.dec.state = .len ∧ t.res.status = .stNoMatchLength)
                ∨ (s.dec.state = .hdr ∧ t.res.status = .stNoMatchHeader)
                ∨ ((s.dec.state = .bitm ∨ s.dec.state = .bits) ∧ t.res.status = .stNoMatchBit
                    ∧ t.res.errIdx = s.dec.i))))

/-- R21 to R24. `DEC_STATUS`, `DEC_ERR_IDX` and the record are written by nothing but a step that returns `DEC` to
`D_IDLE`, and reset. -/
def Obligations.ResultsWrittenOnlyAtReturn : Prop :=
  ∀ (s t : State) (a : Act) (rest : List Act), s.script = a :: rest → a ≠ .reset → step s = .next t →
    t.res ≠ s.res → s.dec.state ≠ .idle ∧ t.dec.state = .idle

/-- R118. `DEC_STATE` moves only along the arrows of the decoder. The two arrows out of `D_LEN` test the count that
`D_LEN` samples: that is `CAP_N`, as R118 says, unless the count was changed under the DECODE, where the model makes it a
free draw (log 11). -/
def Obligations.DecoderTransitionRelation : Prop :=
  ∀ (s t : State) (a : Act) (rest : List Act), s.script = a :: rest → a ≠ .reset → step s = .next t →
    t.dec.state ≠ s.dec.state →
      (s.dec.state = .idle ∧ t.dec.state = .len ∧ a = .host)
        ∨ (s.dec.state = .len ∧ t.dec.state = .idle ∧ s.sampledCount ≠ 230)
        ∨ (s.dec.state = .len ∧ t.dec.state = .hdr ∧ s.sampledCount = 230)
        ∨ (s.dec.state = .hdr ∧ t.dec.state = .idle)
        ∨ (s.dec.state = .hdr ∧ t.dec.state = .bitm ∧ s.dec.idx = 4)
        ∨ (s.dec.state = .bitm ∧ t.dec.state = .idle)
        ∨ (s.dec.state = .bitm ∧ t.dec.state = .bits)
        ∨ (s.dec.state = .bits ∧ t.dec.state = .idle)
        ∨ (s.dec.state = .bits ∧ t.dec.state = .bitm ∧ s.dec.i.toNat ≠ 111)

/-- What an earlier DECODE left in `DEC_IDX`, `DEC_I` and `DEC_ACC` has no effect on one that passes the length check
(R10, R116, R158). The sampled count is `CAP_N`, or the model's free draw where it was changed under the DECODE
(log 11). -/
def Obligations.DecodeForgetsOldScratch : Prop :=
  ∀ (s : State) (rest : List Act) (x : CapIdx) (i : BitNo) (acc : Payload), s.script = .dec :: rest →
    s.dec.state = .len → s.sampledCount = 230 →
      step { s with dec := { s.dec with idx := x, i := i, acc := acc } } = step s

/-- A DECODE run from acceptance to `D_IDLE` returns what the decoder as a function gives (R113), whatever the buffer
holds, whatever the predicate, the mode and the tag are. -/
def Obligations.DecodeRunComputesItsFunction : Prop :=
  ∀ s : State, s.Sized → s.dec.state = .idle → s.dec.Fresh → s.hostPort = some decodeWordH → s.script = decodeScript →
    ∃ t : State, Host.Core.run Sys2Proof.core 1708 s = .next t
      ∧ t.decodeReturn = some
          (decodeRef matchTol Config.bitMarkMode s.tag s.capture.count s.capture.cells.read)
      ∧ (t.res.status = .stMatch → t.res.valid = true) ∧ (t.res.status ≠ .stMatch → s.SameRecord t)
      ∧ t.dec.state = .idle ∧ t.hostPort = none ∧ t.script = []

/-- A DECODE run from acceptance to `D_IDLE` makes exactly the queries of R112, in order, each with its answer. -/
def Obligations.DecodeRunMakesItsQueries : Prop :=
  ∀ s : State, s.Sized → s.dec.state = .idle → s.dec.Fresh → s.hostPort = some decodeWordH → s.script = decodeScript →
    ∃ t : State, Host.Core.run Sys2Proof.core 1708 s = .next t ∧ t.dec.queries = s.dec.queries
        ++ queriesRef matchTol Config.bitMarkMode s.capture.count s.capture.cells.read

/-- R115. The round trip: with the frame of `Trace(V, 112)` behind any gap in the buffer, DECODE ends with a match and
the record holds `V`, 112 and the tag, in every mode; and the law needs of a predicate only MP1 and MP3, whatever the
mode and the tag are. -/
def Obligations.FrameDecodesToItsPayload : Prop :=
  (∀ (v : Payload) (gap : Nat) (s : State), s.Sized → s.dec.state = .idle → s.dec.Fresh →
    s.hostPort = some decodeWordH → s.script = decodeScript → s.capture.count = (loopOf (traceOf v 112) gap).length →
    (∀ i : Nat, i < 230 → s.capture.cells.read i = (loopOf (traceOf v 112) gap).getD i 0) →
      ∃ t : State, Host.Core.run Sys2Proof.core 1708 s = .next t
        ∧ t.res.status = .stMatch ∧ t.res.valid = true ∧ t.res.value = v ∧ t.res.bits = 112
        ∧ t.res.tag = s.tag)
    ∧ ∀ (m : Role → Nat → Nat → Bool) (mode : BitMarkMode) (tag : Nat) (v : Payload) (gap : Nat), MP1 m → MP3 m →
      decodeRef m mode tag (loopOf (traceOf v 112) gap).length (fun i => (loopOf (traceOf v 112) gap).getD i 0)
        = .isMatch v 112 tag

/-- R139. The block's predicate has MP1, MP2 and MP3; and the form it has excludes no predicate that has them. -/
def Obligations.TolerancePredicateIsAnyWithMP : Prop :=
  (MP1 matchTol ∧ MP2 matchTol ∧ MP3 matchTol)
    ∧ ∀ m : Role → Nat → Nat → Bool, MP1 m → MP2 m → MP3 m → ∀ r a n, matchWith m r a n = m r a n

/-! Outputs. -/

/-- R141, R16, R21 to R24, R28, R171. The eight outputs that HOST reads: the busy flags, the status by the codes of R21,
`RES_VALID`, the record while it is valid, and the bit position while the status is a bit failure. That the two reads the
spec forbids give no value is the model's reading of R171 (log 17). -/
def Obligations.HostOutputs : Prop :=
  ∀ s : State,
    (s.hostView.encBusy = true ↔ s.enc.phase ≠ .idle) ∧ (s.hostView.decBusy = true ↔ s.dec.state ≠ .idle)
      ∧ (s.res.status = .stNone → s.hostView.decStatus.toNat = 0)
      ∧ (s.res.status = .stMatch → s.hostView.decStatus.toNat = 1)
      ∧ (s.res.status = .stNoMatchLength → s.hostView.decStatus.toNat = 2)
      ∧ (s.res.status = .stNoMatchHeader → s.hostView.decStatus.toNat = 3)
      ∧ (s.res.status = .stNoMatchBit → s.hostView.decStatus.toNat = 4)
      ∧ s.hostView.resValid = s.res.valid
      ∧ (s.res.valid = true → s.hostView.resValue = some s.res.value ∧ s.hostView.resBits = some s.res.bits
          ∧ s.hostView.resTag = some s.res.tag)
      ∧ (s.res.valid = false → s.hostView.resValue = none ∧ s.hostView.resBits = none ∧ s.hostView.resTag = none)
      ∧ s.hostView.decErrIdx = if s.res.status = .stNoMatchBit then some s.res.errIdx else none

/-! Reset. -/

/-- R171. Right after reset of every build, at the start and whenever HOST resets the block: both agents are idle, there is
no outcome and no valid record, and the constants are in place. That `State.reset` is the build with the default widths
16, 16, 8 of `spec/00_scope.md` section 4 is the model's choice (log 1), and that HOST reads no value in the registers
the spec leaves unspecified is the model's reading (log 17). -/
def Obligations.ResetValues : Prop :=
  (∀ b : Build, (State.resetOf b).build = b ∧ (State.resetOf b).enc.phase = .idle
      ∧ (State.resetOf b).dec.state = .idle ∧ (State.resetOf b).res.status = .stNone
      ∧ (State.resetOf b).res.valid = false
      ∧ (State.resetOf b).hostView = ⟨false, false, 0, none, false, none, none, none⟩
      ∧ (State.resetOf b).enc.port = none ∧ (State.resetOf b).dec.capPort = none
      ∧ (State.resetOf b).dec.matchPort = none)
    ∧ (State.reset = State.resetOf ⟨16, 16, 8⟩
    ∧ Config.timing = ⟨3050, 3050, 3050, 4350, 600, 1690, 600, 112⟩ ∧ Config.carrierKHz = 38
    ∧ Config.psLen = 229 ∧ Config.capExpect = 230)
    ∧ ∀ (s : State) (rest : List Act), s.script = .reset :: rest →
      ∃ t : State, step s = .next t ∧ t.enc.phase = .idle ∧ t.dec.state = .idle ∧ t.res.status = .stNone
        ∧ t.res.valid = false ∧ t.hostView = ⟨false, false, 0, none, false, none, none, none⟩

/-- R171, R172. Reset in any state makes both agents idle with no outcome, abandons what is in progress, issues no
command and makes no query; the emitter's level is not turned off by it. That a command cut short leaves no interval on
the wire (log 9), and that a SETCARRIER cut short leaves the carrier (logs 9 and 10), is the model's choice; with no
command outstanding neither arises. -/
def Obligations.ResetAbandonsOperations : Prop :=
  ∀ (s : State) (rest : List Act), s.script = .reset :: rest →
    ∃ t : State, step s = .next t ∧ t.enc.phase = .idle ∧ t.dec.state = .idle ∧ t.res.status = .stNone
      ∧ t.res.valid = false ∧ t.enc.port = none ∧ t.dec.capPort = none ∧ t.dec.matchPort = none
      ∧ t.enc.trace = s.enc.trace ∧ t.dec.queries = s.dec.queries ∧ t.emitter.wire = s.emitter.wire
      ∧ t.emitter.carrier = s.emitter.carrier ∧ (s.enc.port = none → t.emitter.on = s.emitter.on)
      ∧ s.SameBuffer t ∧ t.build = s.build ∧ t.script = rest

/-! The whole machine. -/

/-- The invariant holds right after reset of every legal build. -/
def Obligations.ResetMeetsInvariant : Prop := ∀ b : Build, b.legal = true → (State.resetOf b).Inv

/-- Every step keeps the invariant: the ranges of R15, R18, R19, R22, the relations of R30, at most one command and one
query outstanding (R27, R49), a record that is whole (R24), a canonical buffer, and every number within the width that
the build gives it (R7, D16). -/
def Obligations.StepKeepsInvariant : Prop :=
  ∀ s t : State, s.Inv → step s = .next t → t.Inv

/-- From a state that meets the invariant no step faults, and the only step that is refused is an ENCODE of a width over
112 that waits on the port (R46, R93, R154). -/
def Obligations.InvariantExcludesFaults : Prop :=
  ∀ s : State, s.Inv →
    (∀ f : Fault, step s ≠ .fault f)
      ∧ ∀ r : Refusal, step s = .refused r →
          ∃ (w : HostWord) (p : Payload) (n : BitNo), s.hostPort = some w ∧ decode s.build (.host w) = .ok (.encode p n)
            ∧ 112 < n.toNat ∧ r = .encodeWidthUndefined n

/-- The block reads no index but 1 to 228, and only while a DECODE is in progress (R46). -/
def Obligations.OnlyEntriesOneTo228AreRead : Prop :=
  ∀ (s : State) (i : CapIdx), s.Inv → s.dec.capPort = some i →
    1 ≤ i.toNat ∧ i.toNat ≤ 228 ∧ s.decBusy = true ∧ i = s.dec.idx

/-- R48. The block never writes the capture buffer: every entry and the count read as before after every step that is
not a write of CAPTURE's own. -/
def Obligations.BlockNeverWritesTheBuffer : Prop :=
  ∀ (s t : State) (a : Act) (rest : List Act), s.script = a :: rest → step s = .next t →
    (∀ i d, a ≠ .capWrite i d) → (∀ n, a ≠ .capCount n) → s.SameBuffer t

/-- R26, R40. What CAPTURE's own moves do: a write stores the duration at its index, at the width of the port, and leaves
every other entry and the count; a new count leaves every entry; and neither changes anything outside CAPTURE. That the
buffer takes a write at every index, and that a number is cut to its port, is the model's choice (log 21), and so are the
marks of what was changed while `DEC` is busy (log 11). -/
def Obligations.CaptureActs : Prop :=
  (∀ (s : State) (i d : Nat) (rest : List Act), s.script = .capWrite i d :: rest → s.capture.cells.wf = true →
      ∃ t : State, step s = .next t
        ∧ (∀ a : Nat, t.capture.cells.read a = if a = i then d % 2 ^ s.build.durW else s.capture.cells.read a)
        ∧ t.capture.count = s.capture.count ∧ t.capture.cells.wf = true ∧ s.SameOutsideCapture t ∧ t.script = rest
        ∧ (∀ a : Nat, a ∈ t.capture.dirty ↔ a ∈ s.capture.dirty ∨ (a = i ∧ s.dec.state ≠ .idle))
        ∧ t.capture.countLow = s.capture.countLow)
    ∧ ∀ (s : State) (n : Nat) (rest : List Act), s.script = .capCount n :: rest →
      ∃ t : State, step s = .next t
        ∧ t.capture.count = n % 2 ^ s.build.cntW ∧ (∀ a : Nat, t.capture.cells.read a = s.capture.cells.read a)
        ∧ t.capture.cells = s.capture.cells ∧ s.SameOutsideCapture t ∧ t.script = rest
        ∧ t.capture.dirty = s.capture.dirty
        ∧ (s.dec.state = .idle → t.capture.countLow = s.capture.countLow)
        ∧ (s.dec.state ≠ .idle → t.capture.broken = true)

/-- R49 (d), R183. `DEC` makes one query at a time: in a step that reads an entry, with none outstanding and the entry not
read, a move of `DEC` issues the CAPREAD of `DEC_IDX` and changes nothing else; and while a CAPREAD or a MATCH is
outstanding, without limit, a move of `DEC` changes nothing but the script. An idle `DEC` does nothing (R173). -/
def Obligations.DecoderWaitsForItsAnswer : Prop :=
  (∀ (s : State) (rest : List Act), s.script = .dec :: rest →
      s.dec.state = .hdr ∨ s.dec.state = .bitm ∨ s.dec.state = .bits →
      s.dec.capPort = none → s.dec.matchPort = none → s.dec.entry = none →
        step s = .next { s with dec := { s.dec with capPort := some s.dec.idx }, script := rest })
    ∧ (∀ (s : State) (rest : List Act), s.script = .dec :: rest →
      s.dec.state = .hdr ∨ s.dec.state = .bitm ∨ s.dec.state = .bits →
      s.dec.capPort.isSome = true ∨ s.dec.matchPort.isSome = true →
        step s = .next { s with script := rest })
    ∧ ∀ (s : State) (rest : List Act), s.script = .dec :: rest → s.dec.state = .idle →
      step s = .next { s with script := rest }

/-- R162. A move of `ENC` or EMITTER and a move of `DEC`, CAPTURE or MATCHER give the same state in either order. -/
def Obligations.AgentsCommute : Prop :=
  ∀ (s t u : State) (a b : Act), (a = .enc ∨ a = .emitter) → (b = .dec ∨ b = .capture ∨ b = .matcher) →
    runAct a s = .next t → runAct b s = .next u →
      ∃ v : State, runAct b t = .next v ∧ runAct a u = .next v

/-- R31, R90. A move of `ENC` or EMITTER leaves `DEC`, its results, HOST and CAPTURE unchanged, and a move of `DEC`,
CAPTURE or MATCHER leaves `ENC`, EMITTER, HOST and the buffer unchanged. -/
def Obligations.AgentsShareNoState : Prop :=
  ∀ (s t : State) (a : Act), runAct a s = .next t →
    (a = .enc ∨ a = .emitter → s.SameOutsideEncoder t) ∧
      (a = .dec ∨ a = .capture ∨ a = .matcher → s.SameOutsideDecoder t)

/-- R7. The arguments of the model are fixed for the life of the hardware: no step changes the build, reset included. -/
def Obligations.StepKeepsBuild : Prop :=
  ∀ s t : State, step s = .next t → t.build = s.build
end

