-- ==== Sys2Proof/Laws/Memory.lean ====
section
/-! SUPPORT. The laws of the capture buffer: a read after a write, and that every memory operation keeps the canonical
form. -/

namespace Sys2Proof.Machine

open Sys2Proof

theorem Memory.wfFrom_mono {lo lo' : Nat} (h : lo' ≤ lo) (m : Memory) (hm : Memory.wfFrom lo m = true) :
    Memory.wfFrom lo' m = true := by
  cases m with
  | nil => rfl
  | cons c rest =>
    obtain ⟨k, v⟩ := c
    simp only [Memory.wfFrom, Bool.and_eq_true, decide_eq_true_eq] at hm ⊢
    exact ⟨⟨le_trans h hm.1.1, hm.1.2⟩, hm.2⟩

/-- An index below the lowest listed one reads as the unlisted value. -/
theorem Memory.read_below {lo a : Nat} (m : Memory) (hm : Memory.wfFrom lo m = true) (ha : a < lo) :
    m.read a = Memory.unlisted := by
  induction m generalizing lo with
  | nil => rfl
  | cons c rest ih =>
    obtain ⟨k, v⟩ := c
    simp only [Memory.wfFrom, Bool.and_eq_true, decide_eq_true_eq] at hm
    have hk : a ≠ k := by omega
    simp only [Memory.read, hk, if_false]
    exact ih hm.2 (by omega)

theorem Memory.wfFrom_write {lo a : Nat} (m : Memory) (v : Nat) (hm : Memory.wfFrom lo m = true) (ha : lo ≤ a) :
    Memory.wfFrom lo (m.write a v) = true := by
  induction m generalizing lo with
  | nil => by_cases hv : v = Memory.unlisted <;> simp [Memory.write, Memory.wfFrom, hv, ha]
  | cons c rest ih =>
    obtain ⟨k, x⟩ := c
    simp only [Memory.wfFrom, Bool.and_eq_true, decide_eq_true_eq] at hm
    obtain ⟨⟨hk, hx⟩, hr⟩ := hm
    unfold Memory.write
    split
    · have : a + 1 ≤ k := by omega
      split <;> simp [Memory.wfFrom, *]
    · split
      · subst_vars
        split
        · exact Memory.wfFrom_mono (by omega) rest hr
        · simp [Memory.wfFrom, *]
      · have : k + 1 ≤ a := by omega
        simp [Memory.wfFrom, hk, hx, ih hr this]

/-- A write keeps the canonical form. -/
theorem Memory.wf_write (m : Memory) (a : Nat) (v : Nat) (hm : m.wf = true) : (m.write a v).wf = true :=
  Memory.wfFrom_write m v hm (Nat.zero_le a)

theorem Memory.read_writeFrom {lo a : Nat} (m : Memory) (v : Nat) (b : Nat) (hm : Memory.wfFrom lo m = true)
    (ha : lo ≤ a) : (m.write a v).read b = if b = a then v else m.read b := by
  induction m generalizing lo with
  | nil =>
    by_cases hv : v = Memory.unlisted <;> by_cases hb : b = a <;> simp [Memory.write, Memory.read, hv, hb]
  | cons c rest ih =>
    obtain ⟨k, x⟩ := c
    simp only [Memory.wfFrom, Bool.and_eq_true, decide_eq_true_eq] at hm
    obtain ⟨⟨hk, hx⟩, hr⟩ := hm
    unfold Memory.write
    split
    · rename_i hak
      split
      · by_cases hb : b = a
        · have hbk : b ≠ k := by omega
          have := Memory.read_below rest hr (a := b) (by omega)
          simp [Memory.read, hb, ‹v = _›, show a ≠ k by omega] at this ⊢
          exact this
        · simp [hb]
      · by_cases hb : b = a <;> simp [Memory.read, hb]
    · split
      · rename_i hak
        subst hak
        split
        · by_cases hb : b = a
          · simp [hb, ‹v = _›, Memory.read_below rest hr (a := a) (by omega)]
          · simp [Memory.read, hb]
        · by_cases hb : b = a <;> simp [Memory.read, hb]
      · have := ih hr (by omega)
        simp only [Memory.read, this]
        by_cases hb : b = k
        · simp [hb, show k ≠ a by omega]
        · simp [hb]

/-- A read after a write: the written index gives the value, every other index what it gave before. -/
theorem Memory.read_write (m : Memory) (a : Nat) (v : Nat) (b : Nat) (hm : m.wf = true) :
    (m.write a v).read b = if b = a then v else m.read b :=
  Memory.read_writeFrom m v b hm (Nat.zero_le a)

/-- The memory after reset is canonical. -/
theorem Memory.wf_reset : State.reset.capture.cells.wf = true := rfl

end Sys2Proof.Machine
end

