-- ==== Sys2Proof/Laws/PerInstr.lean ====
section
/-! SUPPORT. The family `FormatFit`: the word of every instruction travels on the port of its format (R61, R64, R66) and
fits the fixed width of that port (R71). -/

namespace Sys2Proof.Laws.FormatFit

open Sys2Proof

/-- In every build in which the instruction is well formed, its word is on the instruction's port and below
`2 ^ width`. -/
def Statement (i : Instr) : Prop :=
  ∀ b : Build, i.wellFormed b = true →
    (Sys2Proof.encode b i).port = i.port ∧ (Sys2Proof.encode b i).toNat < 2 ^ i.port.width b

/-- A format E word fits its port. -/
theorem emitWordOf_lt {b : Build} {eop : Nat} {arg : Nat} (he : eop < 4) (ha : b.durFits arg = true) :
    emitWordOf b eop arg < 2 ^ (2 + b.durW) := by
  have ha' : arg < 2 ^ b.durW := by simpa [Build.durFits] using ha
  have he' := Nat.mul_le_mul_right (2 ^ b.durW) (Nat.le_of_lt_succ he)
  rw [emitWordOf, Nat.pow_add]
  linarith

/-- A MATCH request fits its port. -/
theorem matchWordOf_lt {b : Build} {r : Role} {a n : Nat} (ha : b.durFits a = true) (hn : b.durFits n = true) :
    matchWordOf b r a n < 2 ^ (1 + 2 * b.durW) := by
  have ha' : a < 2 ^ b.durW := by simpa [Build.durFits] using ha
  have hn' : n < 2 ^ b.durW := by simpa [Build.durFits] using hn
  have hr : roleBit r * 2 ^ b.durW ≤ 1 * 2 ^ b.durW := Nat.mul_le_mul_right _ (by cases r <;> decide)
  have h1 := Nat.mul_le_mul_right (2 ^ b.durW) (show roleBit r * 2 ^ b.durW + a + 1 ≤ 2 * 2 ^ b.durW by linarith)
  rw [matchWordOf, show 1 + 2 * b.durW = 1 + b.durW + b.durW by omega, Nat.pow_add, Nat.pow_add]
  linarith

theorem encode (p : Payload) (n : BitNo) : Statement (.encode p n) := fun _ _ => ⟨rfl, (encodeWordH p n).isLt⟩
theorem decode : Statement .decode := fun _ _ => ⟨rfl, decodeWordH.isLt⟩
theorem space (d : Nat) : Statement (.space d) := fun _ h => ⟨rfl, emitWordOf_lt (by decide) h⟩
theorem mark (d : Nat) : Statement (.mark d) := fun _ h => ⟨rfl, emitWordOf_lt (by decide) h⟩
theorem setCarrier (k : Nat) : Statement (.setCarrier k) := fun _ h => ⟨rfl, emitWordOf_lt (by decide) h⟩
theorem capRead (i : CapIdx) : Statement (.capRead i) := fun _ _ => ⟨rfl, i.isLt⟩
theorem matchDur (r : Role) (a n : Nat) : Statement (.matchDur r a n) := fun b h => by
  obtain ⟨ha, hn⟩ : b.durFits a = true ∧ b.durFits n = true := by simpa [Instr.wellFormed] using h
  exact ⟨rfl, matchWordOf_lt ha hn⟩

end Sys2Proof.Laws.FormatFit
end

