-- ==== Sys2Proof/Laws/State.lean ====
section
/-! SUPPORT. The fields of the state after each named operation, one lemma per field per operation. -/

namespace Sys2Proof.Machine

open Sys2Proof

/-! `capWrite`. -/

@[simp] theorem State.capWrite_build (idx : Nat) (dur : Nat) (s : State) : (s.capWrite idx dur).build = s.build := rfl
@[simp] theorem State.capWrite_enc (idx : Nat) (dur : Nat) (s : State) : (s.capWrite idx dur).enc = s.enc := rfl
@[simp] theorem State.capWrite_dec (idx : Nat) (dur : Nat) (s : State) : (s.capWrite idx dur).dec = s.dec := rfl
@[simp] theorem State.capWrite_res (idx : Nat) (dur : Nat) (s : State) : (s.capWrite idx dur).res = s.res := rfl
@[simp] theorem State.capWrite_emitter (idx : Nat) (dur : Nat) (s : State) :
    (s.capWrite idx dur).emitter =
      s.emitter := rfl
@[simp] theorem State.capWrite_capture (idx : Nat) (dur : Nat) (s : State) :
    (s.capWrite idx dur).capture =
      s.capture.write idx (s.build.asDur dur) s.decBusy := rfl
@[simp] theorem State.capWrite_hostPort (idx : Nat) (dur : Nat) (s : State) :
    (s.capWrite idx dur).hostPort =
      s.hostPort := rfl
@[simp] theorem State.capWrite_draws (idx : Nat) (dur : Nat) (s : State) : (s.capWrite idx dur).draws = s.draws := rfl
@[simp] theorem State.capWrite_script (idx : Nat) (dur : Nat) (s : State) :
    (s.capWrite idx dur).script =
      s.script := rfl

/-! `capCount`. -/

@[simp] theorem State.capCount_build (n : Nat) (s : State) : (s.capCount n).build = s.build := rfl
@[simp] theorem State.capCount_enc (n : Nat) (s : State) : (s.capCount n).enc = s.enc := rfl
@[simp] theorem State.capCount_dec (n : Nat) (s : State) : (s.capCount n).dec = s.dec := rfl
@[simp] theorem State.capCount_res (n : Nat) (s : State) : (s.capCount n).res = s.res := rfl
@[simp] theorem State.capCount_emitter (n : Nat) (s : State) : (s.capCount n).emitter = s.emitter := rfl
@[simp] theorem State.capCount_capture (n : Nat) (s : State) :
    (s.capCount n).capture =
      s.capture.setCount (s.build.asCount n) s.decBusy := rfl
@[simp] theorem State.capCount_hostPort (n : Nat) (s : State) : (s.capCount n).hostPort = s.hostPort := rfl
@[simp] theorem State.capCount_draws (n : Nat) (s : State) : (s.capCount n).draws = s.draws := rfl
@[simp] theorem State.capCount_script (n : Nat) (s : State) : (s.capCount n).script = s.script := rfl

/-! `acceptEncode`. -/

@[simp] theorem State.acceptEncode_build (p : Payload) (n : BitNo) (s : State) :
    (s.acceptEncode p n).build =
      s.build := rfl
@[simp] theorem State.acceptEncode_enc (p : Payload) (n : BitNo) (s : State) :
    (s.acceptEncode p n).enc =
      { s.enc with data := p, cnt := n, phase := .carrier } := rfl
@[simp] theorem State.acceptEncode_dec (p : Payload) (n : BitNo) (s : State) : (s.acceptEncode p n).dec = s.dec := rfl
@[simp] theorem State.acceptEncode_res (p : Payload) (n : BitNo) (s : State) : (s.acceptEncode p n).res = s.res := rfl
@[simp] theorem State.acceptEncode_emitter (p : Payload) (n : BitNo) (s : State) :
    (s.acceptEncode p n).emitter =
      s.emitter := rfl
@[simp] theorem State.acceptEncode_capture (p : Payload) (n : BitNo) (s : State) :
    (s.acceptEncode p n).capture =
      s.capture := rfl
@[simp] theorem State.acceptEncode_hostPort (p : Payload) (n : BitNo) (s : State) :
    (s.acceptEncode p n).hostPort =
      none := rfl
@[simp] theorem State.acceptEncode_draws (p : Payload) (n : BitNo) (s : State) :
    (s.acceptEncode p n).draws =
      s.draws := rfl
@[simp] theorem State.acceptEncode_script (p : Payload) (n : BitNo) (s : State) :
    (s.acceptEncode p n).script =
      s.script := rfl

/-! `runCommand`. -/

@[simp] theorem State.runCommand_build (c : EmitCmd) (s : State) : (s.runCommand c).build = s.build := rfl
@[simp] theorem State.runCommand_enc (c : EmitCmd) (s : State) : (s.runCommand c).enc = s.enc.complete := rfl
@[simp] theorem State.runCommand_dec (c : EmitCmd) (s : State) : (s.runCommand c).dec = s.dec := rfl
@[simp] theorem State.runCommand_res (c : EmitCmd) (s : State) : (s.runCommand c).res = s.res := rfl
@[simp] theorem State.runCommand_emitter (c : EmitCmd) (s : State) : (s.runCommand c).emitter = s.emitter.run c := rfl
@[simp] theorem State.runCommand_capture (c : EmitCmd) (s : State) : (s.runCommand c).capture = s.capture := rfl
@[simp] theorem State.runCommand_hostPort (c : EmitCmd) (s : State) : (s.runCommand c).hostPort = s.hostPort := rfl
@[simp] theorem State.runCommand_draws (c : EmitCmd) (s : State) : (s.runCommand c).draws = s.draws := rfl
@[simp] theorem State.runCommand_script (c : EmitCmd) (s : State) : (s.runCommand c).script = s.script := rfl

/-! `acceptDecode`. -/

@[simp] theorem State.acceptDecode_build (s : State) : s.acceptDecode.build = s.build := rfl
@[simp] theorem State.acceptDecode_enc (s : State) : s.acceptDecode.enc = s.enc := rfl
@[simp] theorem State.acceptDecode_dec (s : State) : s.acceptDecode.dec = { s.dec with state := .len } := rfl
@[simp] theorem State.acceptDecode_res (s : State) : s.acceptDecode.res = s.res := rfl
@[simp] theorem State.acceptDecode_emitter (s : State) : s.acceptDecode.emitter = s.emitter := rfl
@[simp] theorem State.acceptDecode_capture (s : State) : s.acceptDecode.capture = s.capture.settle := rfl
@[simp] theorem State.acceptDecode_hostPort (s : State) : s.acceptDecode.hostPort = none := rfl
@[simp] theorem State.acceptDecode_draws (s : State) : s.acceptDecode.draws = s.draws := rfl
@[simp] theorem State.acceptDecode_script (s : State) : s.acceptDecode.script = s.script := rfl

/-! `headerOk`. -/

@[simp] theorem State.headerOk_build (s : State) : s.headerOk.build = s.build := rfl
@[simp] theorem State.headerOk_enc (s : State) : s.headerOk.enc = s.enc := rfl
@[simp] theorem State.headerOk_dec (s : State) :
    s.headerOk.dec =
      s.dec.consume (if s.dec.segment = 3 then .bitm else .hdr) := rfl
@[simp] theorem State.headerOk_res (s : State) : s.headerOk.res = s.res := rfl
@[simp] theorem State.headerOk_emitter (s : State) : s.headerOk.emitter = s.emitter := rfl
@[simp] theorem State.headerOk_capture (s : State) : s.headerOk.capture = s.capture := rfl
@[simp] theorem State.headerOk_hostPort (s : State) : s.headerOk.hostPort = s.hostPort := rfl
@[simp] theorem State.headerOk_draws (s : State) : s.headerOk.draws = s.draws := rfl
@[simp] theorem State.headerOk_script (s : State) : s.headerOk.script = s.script := rfl

/-! `markOk`. -/

@[simp] theorem State.markOk_build (s : State) : s.markOk.build = s.build := rfl
@[simp] theorem State.markOk_enc (s : State) : s.markOk.enc = s.enc := rfl
@[simp] theorem State.markOk_dec (s : State) : s.markOk.dec = s.dec.consume .bits := rfl
@[simp] theorem State.markOk_res (s : State) : s.markOk.res = s.res := rfl
@[simp] theorem State.markOk_emitter (s : State) : s.markOk.emitter = s.emitter := rfl
@[simp] theorem State.markOk_capture (s : State) : s.markOk.capture = s.capture := rfl
@[simp] theorem State.markOk_hostPort (s : State) : s.markOk.hostPort = s.hostPort := rfl
@[simp] theorem State.markOk_draws (s : State) : s.markOk.draws = s.draws := rfl
@[simp] theorem State.markOk_script (s : State) : s.markOk.script = s.script := rfl

/-! `answerRead`. -/

@[simp] theorem State.answerRead_build (i : CapIdx) (d : Nat) (s : State) : (s.answerRead i d).build = s.build := rfl
@[simp] theorem State.answerRead_enc (i : CapIdx) (d : Nat) (s : State) : (s.answerRead i d).enc = s.enc := rfl
@[simp] theorem State.answerRead_dec (i : CapIdx) (d : Nat) (s : State) :
    (s.answerRead i d).dec =
      { s.dec with capPort := none, entry := some d, queries := s.dec.queries ++ [.capRead i d] } := rfl
@[simp] theorem State.answerRead_res (i : CapIdx) (d : Nat) (s : State) : (s.answerRead i d).res = s.res := rfl
@[simp] theorem State.answerRead_emitter (i : CapIdx) (d : Nat) (s : State) :
    (s.answerRead i d).emitter =
      s.emitter := rfl
@[simp] theorem State.answerRead_capture (i : CapIdx) (d : Nat) (s : State) :
    (s.answerRead i d).capture =
      s.capture := rfl
@[simp] theorem State.answerRead_hostPort (i : CapIdx) (d : Nat) (s : State) :
    (s.answerRead i d).hostPort =
      s.hostPort := rfl
@[simp] theorem State.answerRead_draws (i : CapIdx) (d : Nat) (s : State) :
    (s.answerRead i d).draws =
      if s.capture.touched i then s.draws + 1 else s.draws := rfl
@[simp] theorem State.answerRead_script (i : CapIdx) (d : Nat) (s : State) :
    (s.answerRead i d).script =
      s.script := rfl

/-! `issueRead`. -/

@[simp] theorem State.issueRead_build (s : State) : s.issueRead.build = s.build := rfl
@[simp] theorem State.issueRead_enc (s : State) : s.issueRead.enc = s.enc := rfl
@[simp] theorem State.issueRead_dec (s : State) : s.issueRead.dec = { s.dec with capPort := some s.dec.idx } := rfl
@[simp] theorem State.issueRead_res (s : State) : s.issueRead.res = s.res := rfl
@[simp] theorem State.issueRead_emitter (s : State) : s.issueRead.emitter = s.emitter := rfl
@[simp] theorem State.issueRead_capture (s : State) : s.issueRead.capture = s.capture := rfl
@[simp] theorem State.issueRead_hostPort (s : State) : s.issueRead.hostPort = s.hostPort := rfl
@[simp] theorem State.issueRead_draws (s : State) : s.issueRead.draws = s.draws := rfl
@[simp] theorem State.issueRead_script (s : State) : s.issueRead.script = s.script := rfl

/-! `blockReset`. -/

@[simp] theorem State.blockReset_build (s : State) : s.blockReset.build = s.build := rfl
@[simp] theorem State.blockReset_enc (s : State) :
    s.blockReset.enc =
      { Encoder.reset with trace := s.enc.trace } := rfl
@[simp] theorem State.blockReset_dec (s : State) :
    s.blockReset.dec =
      { Decoder.reset with queries := s.dec.queries } := rfl
@[simp] theorem State.blockReset_res (s : State) : s.blockReset.res = Result.reset := rfl
@[simp] theorem State.blockReset_emitter (s : State) :
    s.blockReset.emitter =
      { s.emitter with on := if s.enc.port.isSome then Config.freeLevel s.draws else s.emitter.on } := rfl
@[simp] theorem State.blockReset_capture (s : State) : s.blockReset.capture = s.capture.settle := rfl
@[simp] theorem State.blockReset_hostPort (s : State) : s.blockReset.hostPort = s.hostPort := rfl
@[simp] theorem State.blockReset_draws (s : State) :
    s.blockReset.draws =
      if s.enc.port.isSome then s.draws + 1 else s.draws := rfl
@[simp] theorem State.blockReset_script (s : State) : s.blockReset.script = s.script := rfl

/-! `Encoder.complete`, `Decoder.consume`. -/

@[simp] theorem Encoder.complete_data (e : Encoder) : e.complete.data = e.data := rfl
@[simp] theorem Encoder.complete_trace (e : Encoder) : e.complete.trace = e.trace := rfl
@[simp] theorem Encoder.complete_port (e : Encoder) : e.complete.port = none := rfl
@[simp] theorem Encoder.complete_phase (e : Encoder) : e.complete.phase = e.phase.next e.cnt := rfl
@[simp] theorem Encoder.complete_cnt (e : Encoder) : e.complete.cnt = if e.phase = .bitSpace then e.cnt - 1 else e.cnt := rfl
@[simp] theorem Decoder.consume_state (d : Decoder) (next : DecState) : (d.consume next).state = next := rfl
@[simp] theorem Decoder.consume_idx (d : Decoder) (next : DecState) : (d.consume next).idx = d.idx + 1 := rfl
@[simp] theorem Decoder.consume_i (d : Decoder) (next : DecState) : (d.consume next).i = d.i := rfl
@[simp] theorem Decoder.consume_acc (d : Decoder) (next : DecState) : (d.consume next).acc = d.acc := rfl
@[simp] theorem Decoder.consume_capPort (d : Decoder) (next : DecState) : (d.consume next).capPort = d.capPort := rfl
@[simp] theorem Decoder.consume_matchPort (d : Decoder) (next : DecState) : (d.consume next).matchPort = d.matchPort := rfl
@[simp] theorem Decoder.consume_entry (d : Decoder) (next : DecState) : (d.consume next).entry = none := rfl
@[simp] theorem Decoder.consume_zeroTest (d : Decoder) (next : DecState) : (d.consume next).zeroTest = false := rfl
@[simp] theorem Decoder.consume_queries (d : Decoder) (next : DecState) : (d.consume next).queries = d.queries := rfl

/-! `Capture.write`, `Capture.setCount`, `Capture.settle`. -/

@[simp] theorem Capture.write_count (i : Nat) (d : Nat) (b : Bool) (c : Capture) :
    (c.write i d b).count = c.count := rfl
@[simp] theorem Capture.write_cells (i : Nat) (d : Nat) (b : Bool) (c : Capture) :
    (c.write i d b).cells = c.cells.write i d := rfl
@[simp] theorem Capture.write_countLow (i : Nat) (d : Nat) (b : Bool) (c : Capture) :
    (c.write i d b).countLow = c.countLow := rfl
@[simp] theorem Capture.setCount_count (n : Nat) (b : Bool) (c : Capture) : (c.setCount n b).count = n := rfl
@[simp] theorem Capture.setCount_cells (n : Nat) (b : Bool) (c : Capture) : (c.setCount n b).cells = c.cells := rfl
@[simp] theorem Capture.setCount_dirty (n : Nat) (b : Bool) (c : Capture) : (c.setCount n b).dirty = c.dirty := rfl
@[simp] theorem Capture.setCount_countLow (n : Nat) (b : Bool) (c : Capture) :
    (c.setCount n b).countLow = if b then some (min (c.countLow.getD c.count) (min c.count n)) else c.countLow := rfl
@[simp] theorem Capture.settle_count (c : Capture) : c.settle.count = c.count := rfl
@[simp] theorem Capture.settle_cells (c : Capture) : c.settle.cells = c.cells := rfl
@[simp] theorem Capture.settle_dirty (c : Capture) : c.settle.dirty = [] := rfl
@[simp] theorem Capture.settle_countLow (c : Capture) : c.settle.countLow = none := rfl
@[simp] theorem Capture.settle_broken (c : Capture) : c.settle.broken = false := rfl

/-! `finish` and `raiseNoMatch`: what they leave; `Sys2Proof/Laws/Step.lean` says what they write. -/

@[simp] theorem State.finish_build (f : Option NoMatch) (v : Payload) (s : State) :
    (s.finish f v).build = s.build := by
  unfold State.finish; split <;> rfl
@[simp] theorem State.finish_enc (f : Option NoMatch) (v : Payload) (s : State) :
    (s.finish f v).enc = s.enc := by
  unfold State.finish; split <;> rfl
@[simp] theorem State.finish_dec (f : Option NoMatch) (v : Payload) (s : State) :
    (s.finish f v).dec = s.dec := by
  unfold State.finish; split <;> rfl
@[simp] theorem State.finish_emitter (f : Option NoMatch) (v : Payload) (s : State) :
    (s.finish f v).emitter = s.emitter := by
  unfold State.finish; split <;> rfl
@[simp] theorem State.finish_capture (f : Option NoMatch) (v : Payload) (s : State) :
    (s.finish f v).capture = s.capture := by
  unfold State.finish; split <;> rfl
@[simp] theorem State.finish_hostPort (f : Option NoMatch) (v : Payload) (s : State) :
    (s.finish f v).hostPort = s.hostPort := by
  unfold State.finish; split <;> rfl
@[simp] theorem State.finish_script (f : Option NoMatch) (v : Payload) (s : State) :
    (s.finish f v).script = s.script := by
  unfold State.finish; split <;> rfl
@[simp] theorem State.raiseNoMatch_build (r : NoMatch) (s : State) :
    (s.raiseNoMatch r).build = s.build := by
  simp [State.raiseNoMatch]
@[simp] theorem State.raiseNoMatch_enc (r : NoMatch) (s : State) :
    (s.raiseNoMatch r).enc = s.enc := by
  simp [State.raiseNoMatch]
@[simp] theorem State.raiseNoMatch_dec (r : NoMatch) (s : State) :
    (s.raiseNoMatch r).dec = { s.dec with state := .idle, entry := none, zeroTest := false } := by
  simp [State.raiseNoMatch]
@[simp] theorem State.raiseNoMatch_emitter (r : NoMatch) (s : State) :
    (s.raiseNoMatch r).emitter = s.emitter := by
  simp [State.raiseNoMatch]
@[simp] theorem State.raiseNoMatch_capture (r : NoMatch) (s : State) :
    (s.raiseNoMatch r).capture = s.capture := by
  simp [State.raiseNoMatch]
@[simp] theorem State.raiseNoMatch_hostPort (r : NoMatch) (s : State) :
    (s.raiseNoMatch r).hostPort = s.hostPort := by
  simp [State.raiseNoMatch]
@[simp] theorem State.raiseNoMatch_script (r : NoMatch) (s : State) :
    (s.raiseNoMatch r).script = s.script := by
  simp [State.raiseNoMatch]

end Sys2Proof.Machine
end

