-- ==== Sys2Proof/Laws/Step.lean ====
section
/-! SUPPORT. What a step, a move and each shared operation can do, said once: the inversion lemmas that later proofs cite
instead of unfolding. -/

namespace Sys2Proof.Machine

open Sys2Proof

/-- A step that answers a next state either had no move to make or made the first one. -/
theorem step_next {s t : State} (h : step s = .next t) :
    (s.script = [] ∧ t = s) ∨ ∃ a rest, s.script = a :: rest ∧ runAct a { s with script := rest } = .next t := by
  unfold step at h
  split at h
  · exact .inl ⟨‹_›, by cases h; rfl⟩
  · exact .inr ⟨_, _, ‹_›, h⟩

/-- The step makes the first move of the script. -/
theorem step_cons {s : State} {a : Act} {rest : List Act} (h : s.script = a :: rest) :
    step s = runAct a { s with script := rest } := by
  simp [step, h]

/-- A run of no steps ends where it is. -/
theorem run_zero (s : State) : Host.Core.run Sys2Proof.core 0 s = .next s := rfl

/-- A run peels off its first step. -/
theorem run_succ {k : Nat} {s t : State} (h : step s = .next t) :
    Host.Core.run Sys2Proof.core (k + 1) s = Host.Core.run Sys2Proof.core k t := by
  have h' : Sys2Proof.core.step s = .next t := h
  simp only [Host.Core.run, h']

/-- A move that runs no word is the operation of that move. -/
theorem runAct_move {a : Act} {s : State} (h : s.fetch a = none) : runAct a s = .next (s.move a) := by
  simp [runAct, h]

/-- A move that runs a word is the meaning of what the word decodes to. -/
theorem runAct_word {a : Act} {s : State} {w : PortWord} {i : Instr} (h : s.fetch a = some w)
    (hd : decode s.build w = .ok i) : runAct a s = exec i s := by
  simp [runAct, h, hd]

/-- A move that answers a next state ran no word, or ran the instruction its word decodes to. -/
theorem runAct_next {a : Act} {s t : State} (h : runAct a s = .next t) :
    (s.fetch a = none ∧ t = s.move a) ∨
      ∃ w i, s.fetch a = some w ∧ decode s.build w = .ok i ∧ exec i s = .next t := by
  unfold runAct at h
  split at h
  · exact .inl ⟨‹_›, by cases h; rfl⟩
  · split at h
    · exact .inr ⟨_, _, ‹_›, ‹_›, h⟩
    · cases h

/-- Everything an instruction can do when it answers a next state. -/
theorem exec_next {i : Instr} {s t : State} (h : exec i s = .next t) :
    (∃ p n, i = .encode p n ∧ ((s.encBusy = true ∧ t = s)
        ∨ (s.encBusy = false ∧ legalWidth n = true ∧ t = s.acceptEncode p n)))
      ∨ (i = .decode ∧ ((s.decBusy = true ∧ t = s) ∨ (s.decBusy = false ∧ t = s.acceptDecode)))
      ∨ (∃ c : EmitCmd, i = c.toInstr ∧ t = s.runCommand c)
      ∨ (∃ k d, i = .capRead k ∧ s.readEntry k = some d ∧ t = s.answerRead k d)
      ∨ (∃ r a n, i = .matchDur r a n ∧ t = s.answerMatch r a n (matchTol r a n)) := by
  cases i with
  | encode p n =>
    refine .inl ⟨p, n, rfl, ?_⟩
    simp only [exec, execEncode] at h
    split at h
    · exact .inl ⟨‹_›, by cases h; rfl⟩
    · split at h
      · exact .inr ⟨by simpa using ‹¬s.encBusy = true›, ‹_›, by cases h; rfl⟩
      · cases h
  | decode =>
    refine .inr (.inl ⟨rfl, ?_⟩)
    simp only [exec, execDecode] at h
    split at h
    · exact .inl ⟨‹_›, by cases h; rfl⟩
    · exact .inr ⟨by simpa using ‹¬s.decBusy = true›, by cases h; rfl⟩
  | space d => exact .inr (.inr (.inl ⟨.space d, rfl, by cases h; rfl⟩))
  | mark d => exact .inr (.inr (.inl ⟨.mark d, rfl, by cases h; rfl⟩))
  | setCarrier k => exact .inr (.inr (.inl ⟨.setCarrier k, rfl, by cases h; rfl⟩))
  | capRead k =>
    simp only [exec, execCapRead] at h
    split at h
    · exact .inr (.inr (.inr (.inl ⟨k, _, rfl, ‹_›, by cases h; rfl⟩)))
    · cases h
  | matchDur r a n => exact .inr (.inr (.inr (.inr ⟨r, a, n, rfl, by cases h; rfl⟩)))

/-- A DECODE ends: over a stable buffer with its outcome, over a changed one with a drawn outcome (R109, R156, R51). -/
theorem State.finish_cases (f : Option NoMatch) (v : Payload) (s : State) :
    (s.capture.broken = false ∧ s.finish f v = { s with res := s.res.after s.tag f v })
      ∨ (s.capture.broken = true ∧ s.finish f v =
        { s with
          res := s.res.after s.tag (drawnFailure s.draws) (Config.freePayload s.draws)
          draws := s.draws + 1 }) := by
  unfold State.finish
  cases s.capture.broken <;> simp

/-- `raise NoMatch` over a stable buffer (R156). -/
theorem State.raiseNoMatch_stable {s : State} (r : NoMatch) (h : s.capture.broken = false) :
    s.raiseNoMatch r =
      { s with
        dec := { s.dec with state := .idle, entry := none, zeroTest := false }
        res := { s.res with status := failureStatus r, errIdx := failureErrIdx r s.res.errIdx } } := by
  simp [State.raiseNoMatch, State.finish, h, Result.after]

/-- No entry of a stable buffer reads as a free draw. -/
theorem Capture.touched_stable {c : Capture} (h : c.broken = false) (i : CapIdx) : c.touched i = false := by
  cases hl : c.countLow <;> simp_all [Capture.broken, Capture.touched]

/-- A drawn bit failure names one of the 112 cells (R22). -/
theorem drawnFailure_bit {k : Nat} {i : BitNo} (h : drawnFailure k = some (.bit i)) : i.toNat ≤ 111 := by
  unfold drawnFailure at h
  split at h
  · obtain rfl : _ % 112 = i := by simpa using h
    rw [BitVec.toNat_umod]
    exact Nat.le_of_lt_succ (Nat.mod_lt _ (by decide))
  · rename_i hne
    exact absurd h (hne i)

/-- The length check ends the DECODE or enters the header (R102, R103). -/
theorem State.checkLength_cases (s : State) :
    (s.sampledCount ≠ Config.capExpect ∧ s.checkLength =
        ({ s with draws := if s.capture.countLow.isSome then s.draws + 1 else s.draws } : State).raiseNoMatch .length)
      ∨ (s.sampledCount = Config.capExpect ∧ s.checkLength =
        { s with
          draws := if s.capture.countLow.isSome then s.draws + 1 else s.draws
          dec := { s.dec with state := .hdr, idx := 1, i := 0, acc := 0, entry := none, zeroTest := false } }) := by
  by_cases h : s.sampledCount = Config.capExpect
  · exact .inr ⟨h, by simp [State.checkLength, h]⟩
  · exact .inl ⟨h, by simp [State.checkLength, h]⟩

/-- A found bit goes into the accumulator, and the DECODE goes on or ends in success (R108, R109). -/
theorem State.takeBit_cases (b : Bool) (s : State) :
    (s.dec.i.toNat = 111 ∧ s.takeBit b =
        State.finish none (appendBit s.dec.acc b)
          { s with dec := { s.dec.consume .idle with acc := appendBit s.dec.acc b } })
      ∨ (s.dec.i.toNat ≠ 111 ∧ s.takeBit b =
        { s with dec := { s.dec.consume .bitm with acc := appendBit s.dec.acc b, i := s.dec.i + 1 } }) := by
  by_cases h : s.dec.i.toNat = 111
  · exact .inl ⟨h, by simp [State.takeBit, Config.timing, h]⟩
  · exact .inr ⟨h, by simp [State.takeBit, Config.timing, h]⟩

/-- Everything `DEC` can do with an answer (R104, R106, R107, R108). -/
theorem State.useAnswer_cases (ok : Bool) (s : State) :
    ((s.dec.state = .idle ∨ s.dec.state = .len) ∧ s.useAnswer ok = s)
      ∨ (s.dec.state = .hdr ∧ s.useAnswer ok = if ok then s.headerOk else s.raiseNoMatch .header)
      ∨ (s.dec.state = .bitm ∧ s.useAnswer ok = if ok then s.markOk else s.raiseNoMatch (.bit s.dec.i))
      ∨ (s.dec.state = .bits ∧ ok = true ∧ s.useAnswer ok = s.takeBit (!s.dec.zeroTest))
      ∨ (s.dec.state = .bits ∧ ok = false ∧ s.dec.zeroTest = true ∧
          s.useAnswer ok = s.raiseNoMatch (.bit s.dec.i))
      ∨ (s.dec.state = .bits ∧ ok = false ∧ s.dec.zeroTest = false ∧
          s.useAnswer ok = { s with dec := { s.dec with zeroTest := true } }) := by
  unfold State.useAnswer
  cases hs : s.dec.state <;> cases ok <;> cases s.dec.zeroTest <;> simp [hs]

/-- Everything a move of a scanning `DEC` can do: wait, read, or match (R104, R106, R107). -/
theorem State.advanceScan_cases (s : State) :
    ((s.dec.capPort ≠ none ∨ s.dec.matchPort ≠ none) ∧ s.advanceScan = s)
      ∨ (s.dec.capPort = none ∧ s.dec.matchPort = none ∧ s.dec.entry = none ∧ s.advanceScan = s.issueRead)
      ∨ (∃ x r, s.dec.capPort = none ∧ s.dec.matchPort = none ∧ s.dec.entry = some x
          ∧ s.dec.matchReq Config.bitMarkMode x = some r
          ∧ s.advanceScan = { s with dec := { s.dec with matchPort := some (r.word s.build) } })
      ∨ (∃ x, s.dec.capPort = none ∧ s.dec.matchPort = none ∧ s.dec.entry = some x
          ∧ s.dec.matchReq Config.bitMarkMode x = none ∧ s.advanceScan = s.markOk) := by
  unfold State.advanceScan
  cases hc : s.dec.capPort with
  | some c => exact .inl (by simp)
  | none =>
    cases hm : s.dec.matchPort with
    | some m => exact .inl (by simp)
    | none =>
      cases he : s.dec.entry with
      | none => exact .inr (.inl (by simp))
      | some x =>
        cases hr : s.dec.matchReq Config.bitMarkMode x with
        | some r => exact .inr (.inr (.inl ⟨x, r, by simp [State.issueMatch, hr]⟩))
        | none => exact .inr (.inr (.inr ⟨x, by simp [State.issueMatch, hr]⟩))

/-- A step of `DEC` that reads no MATCH is a bit mark in mode SKIP (R106). -/
theorem Decoder.matchReq_none {mode : BitMarkMode} {d : Decoder} {x : Nat} (hs : d.state.code.toNat ≥ 2)
    (h : d.matchReq mode x = none) : d.state = .bitm ∧ mode = .skip := by
  cases hd : d.state <;> simp [hd, DecState.code, Decoder.matchReq] at hs h ⊢
  cases mode <;> simp [markQuery] at h ⊢

/-- What an answer to CAPREAD is: a free draw, or the stored entry of a present index (R51, R136). -/
theorem State.readEntry_some {s : State} {i : CapIdx} {d : Nat} (h : s.readEntry i = some d) :
    (s.capture.touched i = true ∧ d = s.build.asDur (Config.freeDur s.draws))
      ∨ (s.capture.touched i = false ∧ i.toNat < s.capture.count ∧ d = s.capture.cells.read i.toNat) := by
  unfold State.readEntry at h
  split at h
  · exact .inl ⟨‹_›, by simpa using h.symm⟩
  · split at h
    · exact .inr ⟨by simpa using ‹¬s.capture.touched i = true›, ‹_›, by simpa using h.symm⟩
    · cases h

/-- `ENC` issues one command, the one of its phase, and only with none outstanding (R91). -/
theorem Encoder.issue_cases (b : Build) (e : Encoder) :
    e.issue b = e ∨ ∃ c, e.port = none ∧ e.command = some c
      ∧ e.issue b = { e with port := some (c.word b), trace := e.trace ++ [c] } := by
  unfold Encoder.issue
  cases hp : e.port with
  | some w => exact .inl rfl
  | none =>
    cases hc : e.command with
    | none => exact .inl rfl
    | some c => exact .inr ⟨c, rfl, rfl, rfl⟩

end Sys2Proof.Machine
end

