-- ==== Sys2Proof/Tests/Slice0.lean ====
section
/-! SUPPORT. Tests of the model against the words and vectors of `spec/95_test_vectors.md` and against hand calculation
from the rules, and a witness for the hypotheses of each statement. -/

namespace Sys2Proof.Tests

open Sys2Proof Sys2Proof.Machine

/-! Well-formedness: each check refuses an ill-formed term. -/

/-- V-H7: width 113 (R93). -/
theorem test_wellFormed_refuses_113 : Instr.wellFormed .default (.encode 0 113) = false := by decide
/-- Width 112 is the last legal one (R62). -/
theorem test_wellFormed_takes_112 : Instr.wellFormed .default (.encode 0 112) = true := by decide

/-- R64, D16: 65536 is no duration of 16 bits, and 8192 none of 13 bits. -/
theorem test_wellFormed_refuses_wide :
    Instr.wellFormed .default (.mark 65536) = false ∧ Instr.wellFormed .default (.space 65536) = false
      ∧ Instr.wellFormed .default (.setCarrier 65536) = false ∧ Instr.wellFormed ⟨13, 8, 8⟩ (.mark 8192) = false
      ∧ Instr.wellFormed .default (.matchDur .mark 65536 600) = false
      ∧ Instr.wellFormed .default (.matchDur .mark 600 65536) = false
      ∧ Instr.wellFormed .default (.mark 65535) = true := by decide
/-- D16: `DUR_W` is at least 13 and `CNT_W` at least 8. -/
theorem test_build_legal :
    Build.default.legal = true ∧ Build.legal ⟨13, 8, 1⟩ = true ∧ Build.legal ⟨12, 16, 8⟩ = false
      ∧ Build.legal ⟨16, 7, 8⟩ = false := by decide

/-! Decoding: words written out from the encodings. -/

/-- V-H2: bit 119 is 0, 118:112 is 1110000, then the payload V2. -/
theorem test_decode_encode :
    decode .default (.host 0x700123456789ABCDEF0123456789AB) = .ok (.encode 0x0123456789ABCDEF0123456789AB 112) := by rfl
/-- R63: bit 119 alone; here every ignored bit is 1. -/
theorem test_decode_decode : decode .default (.host 0xFFFFFFFFFFFFFFFFFFFFFFFFFFFFFF) = .ok .decode := by rfl
/-- R64, bit by bit: eop 00, arg 0001000011111110 = 4350 (V-P4). -/
theorem test_decode_space : decode .default (.emitter 0b000001000011111110) = .ok (.space 4350) := by rfl
/-- R64, bit by bit: eop 01, arg 0000001001011000 = 600 (V-P5). -/
theorem test_decode_mark : decode .default (.emitter 0b010000001001011000) = .ok (.mark 600) := by rfl
/-- R64, bit by bit: eop 10, arg 0000000000100110 = 38 (V-P1). -/
theorem test_decode_setCarrier : decode .default (.emitter 0b100000000000100110) = .ok (.setCarrier 38) := by rfl
/-- R70 (c): eop 11 is reserved. -/
theorem test_decode_reserved : decode .default (.emitter 0b110000000000000000) = .error .reservedEmitterOp := by rfl
/-- R66: the whole request is the index. -/
theorem test_decode_capRead : decode .default (.capture 0b11100100) = .ok (.capRead 228) := by rfl
/-- R66, bit by bit: role 0, actual 0000011111010000 = 2000, nominal 0000011010011010 = 1690. -/
theorem test_decode_match_space :
    decode .default (.matcher 0b000000111110100000000011010011010) = .ok (.matchDur .space 2000 1690) := by rfl
/-- R66, bit by bit: role 1, actual 0000101111101010 = 3050, nominal the same. -/
theorem test_decode_match_mark :
    decode .default (.matcher 0b100001011111010100000101111101010) = .ok (.matchDur .mark 3050 3050) := by rfl
/-- R64: with `DUR_W` 13 the word has 15 bits and `eop` is bits 14:13; with `DUR_W` 20 it has 22 bits. -/
theorem test_decode_other_build :
    decode ⟨13, 16, 8⟩ (.emitter 0b010001001011000) = .ok (.mark 600)
      ∧ decode ⟨20, 16, 8⟩ (.emitter 0b1000000000000000100110) = .ok (.setCarrier 38)
      ∧ decode ⟨13, 16, 8⟩ (.emitter 0b110000000000000) = .error .reservedEmitterOp := by decide
/-- The table's numbering: 18 bits in whole bytes; a number with a bit above them is no word. -/
theorem test_decodeTableWord : decodeTableWord 24 0x10258 = some (.mark 600) ∧ decodeTableWord 24 0x40000 = none := by
  decide
/-- The encoder writes the words of section 3: V-H3, V-P6, V-P1. -/
theorem test_encode_words :
    encode .default (.encode 5 3) = .host 0x030000000000000000000000000005
      ∧ encode .default (.space 1690) = .emitter 0x0069A ∧ encode .default (.setCarrier 38) = .emitter 0x20026 := by decide

/-! The reference functions against the vectors of section 4 and 5. -/

/-- V-E6: the words of `ENCODE 0x5, 3`. -/
theorem test_traceOf_five :
    (traceOf 5 3).map (EmitCmd.word .default) =
      [0x20026, 0x10BEA, 0x00BEA, 0x10BEA, 0x010FE, 0x10258, 0x0069A, 0x10258, 0x00258, 0x10258, 0x0069A, 0x10258,
        0x00000] := by decide
/-- P5: the loopback of `ENCODE 0x6, 4`. -/
theorem test_loop_six :
    loopOf (traceOf 6 4) 20000 =
      [20000, 3050, 3050, 3050, 4350, 600, 600, 600, 1690, 600, 1690, 600, 600, 600] := by decide
/-- R139: MP2 and MP3, and MP1 for the one-space. -/
theorem test_matchTol :
    matchTol .space 2000 600 = false ∧ matchTol .space 2000 1690 = false ∧ matchTol .space 600 1690 = false
      ∧ matchTol .mark 1690 1690 = true := by decide

/-! Small states. -/

/-- `ENC` in a phase, with payload 5 (binary 101) and a count, a script, and nothing outstanding. -/
def encAt (p : EncPhase) (n : BitNo) (script : List Act) : State :=
  { State.reset with enc := { Encoder.reset with phase := p, data := 5, cnt := n }, script := script }

/-- `DEC` in a state, with an index and a cell, over a buffer of 230 entries whose entry 6 is 1690 and the others of the
first eight the nominal ones of a frame. -/
def decAt (st : DecState) (idx : CapIdx) (i : BitNo) (script : List Act) : State :=
  { State.reset with
    dec := { Decoder.reset with state := st, idx := idx, i := i }
    capture := { Capture.start with
      count := 230
      cells := [(1, 3050), (2, 3050), (3, 3050), (4, 4350), (5, 600), (6, 1690), (7, 600), (8, 600), (228, 1690)] }
    script := script }

/-! One step per instruction. -/

/-- R81: ENCODE is accepted by an idle encoder. -/
theorem test_encode_accepted :
    (match exec (.encode 5 3) State.reset with
      | .next t => decide (t.enc.phase = .carrier ∧ t.enc.cnt = 3 ∧ t.enc.data = 5 ∧ t.enc.trace = [])
      | _ => false) = true := by decide
/-- V-E10: width 113 is refused. -/
theorem test_encode_refused :
    (match exec (.encode 0 113) State.reset with
      | .refused r => decide (r = .encodeWidthUndefined 113)
      | _ => false) = true := by decide
/-- R101: DECODE is accepted by an idle decoder and keeps the status. -/
theorem test_decode_accepted :
    (match exec .decode State.reset with
      | .next t => decide (t.dec.state = .len ∧ t.res.status = .stNone)
      | _ => false) = true := by decide
/-- R101: a busy decoder leaves the word pending. -/
theorem test_decode_pending :
    (match exec .decode (decAt .bits 6 0 []) with
      | .next t => decide (t = decAt .bits 6 0 [])
      | _ => false) = true := by decide
/-- R86, sequencer walk of V-E6: the last bit cell's space completes and the count goes from 1 to 0. -/
theorem test_space_last_cell :
    (match exec (.space 1690) (encAt .bitSpace 1 []) with
      | .next t => decide (t.enc.phase = .trailMark ∧ t.enc.cnt = 0 ∧ t.emitter.on = false)
      | _ => false) = true := by decide
/-- R88, R134: SPACE 0 ends the ENCODE and leaves no interval. -/
theorem test_space_zero :
    (match exec (.space 0) (encAt .trailSpace 0 []) with
      | .next t => decide (t.enc.phase = .idle ∧ t.emitter.wire = [])
      | _ => false) = true := by decide
/-- R85, R132: MARK 600 in a bit cell. -/
theorem test_mark_in_cell :
    (match exec (.mark 600) (encAt .bitMark 3 []) with
      | .next t => decide (t.enc.phase = .bitSpace ∧ t.enc.cnt = 3 ∧ t.emitter.wire = [⟨.mark, 600⟩])
      | _ => false) = true := by decide
/-- R82, R131: SETCARRIER 38. -/
theorem test_setCarrier :
    (match exec (.setCarrier 38) (encAt .carrier 3 []) with
      | .next t => decide (t.enc.phase = .hm1 ∧ t.emitter.carrier = 38 ∧ t.emitter.on = false)
      | _ => false) = true := by decide
/-- R86: cell 1 of `ENCODE 0x5, 3` has count 2 and reads payload bit 1, which is 0: SPACE 600. -/
theorem test_issue_selects_bit : ((encAt .bitSpace 2 []).enc.issue .default).port = some 0x00258 := by decide
/-- V-D1's buffer, `CAPREAD 4 -> 4350` (R136). -/
theorem test_capRead :
    (match exec (.capRead 4) (decAt .hdr 4 0 []) with
      | .next t => decide (t.dec.entry = some 4350 ∧ t.dec.queries = [.capRead 4 4350])
      | _ => false) = true := by decide
/-- R46: index 230 of a buffer of 230 entries does not exist. -/
theorem test_capRead_absent :
    (match exec (.capRead 230) (decAt .hdr 4 0 []) with
      | .fault f => decide (f = .captureEntryAbsent 230)
      | _ => false) = true := by decide
/-- V-D40: 2000 matches no space, in cell 0 after the one-space said no: NoMatch(bit 0). -/
theorem test_match_no_space :
    (match exec (.matchDur .space 2000 600)
        { decAt .bits 6 0 [] with dec := { (decAt .bits 6 0 []).dec with entry := some 2000, zeroTest := true } } with
      | .next t => decide (t.dec.state = .idle ∧ t.res.status = .stNoMatchBit ∧ t.res.errIdx = 0)
      | _ => false) = true := by decide
/-- R109: the last cell's one-space writes the record. -/
theorem test_match_last_cell :
    (match exec (.matchDur .space 1690 1690) (decAt .bits 228 111 []) with
      | .next t => decide (t.dec.state = .idle ∧ t.res.status = .stMatch ∧ t.res.value = 1 ∧ t.res.bits = 112)
      | _ => false) = true := by decide
/-- R102, V-D12: an empty buffer fails the length check. -/
theorem test_length_empty :
    (match step { State.reset with dec := { Decoder.reset with state := .len }, script := [.dec] } with
      | .next t => decide (t.dec.state = .idle ∧ t.res.status = .stNoMatchLength)
      | _ => false) = true := by decide
/-- The first instruction after reset: a placed MARK 600 runs. -/
theorem test_placed_mark_runs :
    (match step (State.reset.withFetchWord 24 0x10258) with
      | .next t => decide (t.emitter.on = true ∧ t.enc.port = none ∧ t.script = [])
      | _ => false) = true := by decide

/-! Witnesses: states and operands that meet the hypotheses of each statement of
`Sys2Proof/Certificates/Slice0/Obligations.lean` together. -/

/-- A state that meets the invariant with both agents busy. -/
def busyState (script : List Act) : State :=
  { decAt .hdr 1 0 script with
    enc := { Encoder.reset with phase := .bitSpace, data := 5, cnt := 3, port := some 0x0069A }
    dec := { Decoder.reset with state := .hdr, idx := 1, capPort := some 1 } }

theorem witness_inv (script : List Act) : (busyState script).Inv where
  sized := show (busyState []).Sized by decide
  enc := show (busyState []).enc.Ok .default by decide
  range := show (busyState []).dec.InRange by decide
  ports := show (busyState []).dec.PortsOk .default by decide
  res := show (busyState []).res.Ok (busyState []).tag by decide
  capture := show (busyState []).CaptureOk by decide

/-- The invariant with an idle encoder. -/
theorem witness_inv_idle (script : List Act) (w : Option HostWord) :
    State.Inv { decAt .bits 6 0 script with hostPort := w } where
  sized := show (decAt .bits 6 0 []).Sized by decide
  enc := show (decAt .bits 6 0 []).enc.Ok .default by decide
  range := show (decAt .bits 6 0 []).dec.InRange by decide
  ports := show (decAt .bits 6 0 []).dec.PortsOk .default by decide
  res := show (decAt .bits 6 0 []).res.Ok (decAt .bits 6 0 []).tag by decide
  capture := show (decAt .bits 6 0 []).CaptureOk by decide

theorem witness_DecodeOfEncodedInstruction :
    Instr.wellFormed .default (.encode 0 112) = true ∧ Instr.wellFormed .default (.mark 65535) = true := by decide
theorem witness_EncodeOfDecodedWord :
    decode .default (.emitter 0x10258) = .ok (.mark 600) ∧ Instr.mark 600 ≠ .decode := ⟨rfl, by decide⟩
theorem witness_OnlyReservedEopIsRejected :
    decode .default (.emitter 0x30000) = .error .reservedEmitterOp ∧ (0x30000 : Nat) / 2 ^ Build.default.durW = 3
      ∧ decode .default (.emitter 0x40000) = .error .wordTooWide
      ∧ 2 ^ (PortWord.emitter 0x40000).port.width .default ≤ (PortWord.emitter 0x40000).toNat
      ∧ 2 ^ (PortWord.matcher (2 ^ 33)).port.width .default ≤ (PortWord.matcher (2 ^ 33)).toNat := by decide
theorem witness_StepRunsDecodedInstruction :
    (State.reset.withFetchWord 24 0x10258).script = .emitter :: []
      ∧ (State.reset.withFetchWord 24 0x10258).fetch .emitter = some (.emitter 0x10258)
      ∧ decode .default (.emitter 0x10258) = .ok (.mark 600) := ⟨rfl, rfl, rfl⟩
theorem witness_PlacedWordRunsNext :
    State.reset.build = .default ∧ decode (State.resetOf ⟨13, 8, 1⟩).build (.emitter 0x2258) = .ok (.mark 600) ∧
    decodeTableWord 120 0 = some (.encode 0 0) ∧ decodeTableWord 120 (2 ^ 120 - 1) = some .decode
      ∧ decodeTableWord 8 255 = some (.capRead 255) ∧ decodeTableWord 40 0 = some (.matchDur .space 0 0) := by decide
theorem witness_ReservedEopIsRefused :
    (State.reset.withFetchWord 24 0x30000).script = .emitter :: []
      ∧ (State.reset.withFetchWord 24 0x30000).enc.port = some 0x30000
      ∧ (0x30000 : Nat) / 2 ^ (State.reset.withFetchWord 24 0x30000).build.durW = 3 := by decide
theorem witness_HostPortActs :
    (encAt .idle 0 [.present 1]).script = .present 1 :: [] ∧ (encAt .idle 0 [.withdraw]).script = .withdraw :: []
      ∧ (encAt .idle 0 []).script = [] := by decide
theorem witness_EncodeIsAccepted :
    State.reset.enc.phase = .idle ∧ (0 : BitNo).toNat ≤ 112 ∧ (112 : BitNo).toNat ≤ 112
      ∧ (encAt .carrier 3 []).enc.phase ≠ .idle := by decide
theorem witness_EncodeOverCapacityIsRefused :
    State.reset.enc.phase = .idle ∧ 112 < (113 : BitNo).toNat ∧ 112 < (127 : BitNo).toNat := by decide
theorem witness_EncodeForgetsOldScratch : (encAt .idle 7 []).enc.phase = .idle := by decide
theorem witness_EncoderStepPerPhase :
    ∀ x ∈ [(EncPhase.carrier, (3 : BitNo)), (.hm1, 3), (.hs1, 3), (.hm2, 3), (.hs2, 0), (.hs2, 112), (.bitMark, 1),
        (.bitSpace, 1), (.bitSpace, 2), (.bitSpace, 112), (.trailMark, 0), (.trailSpace, 0)],
      (encAt x.1 x.2 [.enc, .emitter]).build.legal = true ∧ (encAt x.1 x.2 [.enc, .emitter]).script = .enc :: .emitter :: []
        ∧ (encAt x.1 x.2 [.enc, .emitter]).enc.port = none ∧ (encAt x.1 x.2 [.enc, .emitter]).enc.phase ≠ .idle
        ∧ ((encAt x.1 x.2 [.enc, .emitter]).enc.phase.inCell = true →
            1 ≤ (encAt x.1 x.2 [.enc, .emitter]).enc.cnt.toNat) := by decide
theorem witness_OutstandingCommandHoldsPhase :
    ((encAt .hm1 3 [.enc]).script = .enc :: [] ∧ (encAt .hm1 3 [.enc]).enc.phase ≠ .idle
        ∧ (encAt .hm1 3 [.enc]).enc.port = none)
      ∧ (busyState [.enc]).script = .enc :: [] ∧ (busyState [.enc]).enc.port.isSome = true := by decide
theorem witness_SpaceTurnsEmitterOff : 0 < (1 : Nat) := by decide
theorem witness_EncoderTransitionRelation_accept :
    ∃ t : State, step { State.reset with hostPort := some (encodeWordH 5 112), script := [.host] } = .next t
      ∧ Act.host ≠ .reset ∧ t.enc.phase ≠ State.reset.enc.phase := ⟨_, rfl, by decide, by decide⟩
theorem witness_EncoderTransitionRelation_arrow :
    ∃ t : State, step (busyState [.emitter]) = .next t ∧ Act.emitter ≠ .reset
      ∧ t.enc.phase ≠ (busyState [.emitter]).enc.phase := ⟨_, rfl, by decide, by decide⟩
theorem witness_EncoderConservesItsTrace :
    (busyState [.emitter]).Inv ∧ (busyState [.emitter]).script = .emitter :: [] ∧ Act.emitter ≠ .reset
      ∧ (busyState [.emitter]).enc.phase ≠ .idle ∧ ∃ t : State, step (busyState [.emitter]) = .next t :=
  ⟨witness_inv _, rfl, by decide, by decide, _, rfl⟩
theorem witness_AcceptedEncodeOwesItsTrace :
    (State.Inv { decAt .bits 6 0 [] with hostPort := none } ∧ (decAt .bits 6 0 []).enc.phase = .idle
        ∧ (112 : BitNo).toNat ≤ 112)
      ∧ State.reset.enc.phase = .idle ∧ ∃ t : State, step State.reset = .next t :=
  ⟨⟨witness_inv_idle _ _, rfl, by decide⟩, rfl, _, rfl⟩

/-- A state about to run an ENCODE. -/
def encodeReady (p : Payload) (n : BitNo) : State :=
  { State.reset with hostPort := some (encodeWordH p n), script := encodeScript n.toNat }

theorem witness_EncodeRunIssuesItsTrace (p : Payload) :
    ∀ n ∈ [(0 : BitNo), 112], (encodeReady p n).build.legal = true ∧ (encodeReady p n).enc.phase = .idle ∧ (encodeReady p n).enc.port = none
      ∧ n.toNat ≤ 112 ∧ (encodeReady p n).hostPort = some (encodeWordH p n)
      ∧ (encodeReady p n).script = encodeScript n.toNat := by
  intro n hn
  refine ⟨rfl, rfl, rfl, ?_, rfl, rfl⟩
  revert n
  decide
theorem witness_EncodeIgnoresHighPayloadBits :
    (encodeReady 0xF5 3).build.legal = true ∧ (encodeReady 0xF5 3).enc.phase = .idle ∧ (encodeReady 0xF5 3).enc.port = none ∧ (3 : BitNo).toNat ≤ 112
      ∧ (0xF5 : Payload).toNat % 2 ^ (3 : BitNo).toNat = (0x5 : Payload).toNat % 2 ^ (3 : BitNo).toNat
      ∧ (encodeReady 0xF5 3).script = encodeScript (3 : BitNo).toNat := by decide
theorem witness_OnlyListedWordsAreIssued :
    (encAt .hm1 3 [.enc]).build = .default ∧ ∃ t : State, step (encAt .hm1 3 [.enc]) = .next t := ⟨rfl, _, rfl⟩

theorem witness_DecodeIsAccepted :
    State.reset.dec.state = .idle ∧ (decAt .bits 6 0 []).dec.state ≠ .idle := by decide

/-- `DEC` at the length check over a count. -/
def lenAt (n : Nat) (script : List Act) : State :=
  { State.reset with
    dec := { Decoder.reset with state := .len }
    capture := { Capture.start with count := n }
    script := script }

theorem witness_LengthCheckStep :
    ∀ n ∈ [(0 : Nat), 229, 230, 231, 65535], (lenAt n [.dec]).script = .dec :: [] ∧ (lenAt n [.dec]).dec.state = .len
      ∧ (lenAt n [.dec]).capture.broken = false ∧ (lenAt n [.dec]).capture.count = n :=
  fun _ _ => ⟨rfl, rfl, rfl, rfl⟩

/-- The moves of a step with one MATCH. -/
def fourMoves : List Act := [.dec, .capture, .dec, .matcher]

theorem witness_HeaderSegmentStep :
    ∀ k ∈ [0, 1, 2, 3], k < 4 ∧ (decAt .hdr (BitVec.ofNat 8 (1 + k)) 0 fourMoves).dec.state = .hdr
      ∧ (decAt .hdr (BitVec.ofNat 8 (1 + k)) 0 fourMoves).dec.idx.toNat = 1 + k
      ∧ (decAt .hdr (BitVec.ofNat 8 (1 + k)) 0 fourMoves).Sized
      ∧ 1 + k < (decAt .hdr (BitVec.ofNat 8 (1 + k)) 0 fourMoves).capture.count
      ∧ (decAt .hdr (BitVec.ofNat 8 (1 + k)) 0 fourMoves).capture.broken = false
      ∧ (decAt .hdr (BitVec.ofNat 8 (1 + k)) 0 fourMoves).script = .dec :: .capture :: .dec :: .matcher :: [] := by
  decide
theorem witness_Fresh (st : DecState) (idx : CapIdx) (i : BitNo) (l : List Act) : (decAt st idx i l).dec.Fresh :=
  ⟨rfl, rfl, rfl, rfl⟩
theorem witness_BitMarkStep :
    (decAt .bitm 5 0 fourMoves).dec.state = .bitm ∧ (decAt .bitm 5 0 fourMoves).dec.Fresh
      ∧ (decAt .bitm 5 0 fourMoves).dec.idx.toNat < (decAt .bitm 5 0 fourMoves).capture.count
      ∧ (decAt .bitm 5 0 fourMoves).capture.broken = false ∧ (decAt .bitm 5 0 fourMoves).Sized
      ∧ (decAt .bitm 5 0 fourMoves).script = .dec :: .capture :: .dec :: .matcher :: [] :=
  ⟨rfl, ⟨rfl, rfl, rfl, rfl⟩, by decide, by decide, by decide, rfl⟩
/-- A one-space: four moves. -/
theorem witness_BitSpaceStep_one :
    (decAt .bits 228 111 fourMoves).dec.state = .bits ∧ (decAt .bits 228 111 fourMoves).dec.Fresh
      ∧ (228 : CapIdx).toNat < (decAt .bits 228 111 fourMoves).capture.count
      ∧ (decAt .bits 228 111 fourMoves).capture.broken = false ∧ (decAt .bits 228 111 fourMoves).Sized
      ∧ matchTol .space ((decAt .bits 228 111 fourMoves).capture.cells.read 228) 1690 = true
      ∧ (decAt .bits 228 111 fourMoves).script = fourMoves ++ ([] ++ []) :=
  ⟨rfl, ⟨rfl, rfl, rfl, rfl⟩, by decide, by decide, by decide, by decide, rfl⟩
/-- A zero-space: six moves. -/
theorem witness_BitSpaceStep_zero :
    (decAt .bits 8 1 (fourMoves ++ [.dec, .matcher])).dec.state = .bits
      ∧ (decAt .bits 8 1 (fourMoves ++ [.dec, .matcher])).dec.Fresh
      ∧ (8 : CapIdx).toNat < (decAt .bits 8 1 (fourMoves ++ [.dec, .matcher])).capture.count
      ∧ (decAt .bits 8 1 (fourMoves ++ [.dec, .matcher])).capture.broken = false
      ∧ (decAt .bits 8 1 (fourMoves ++ [.dec, .matcher])).Sized
      ∧ matchTol .space ((decAt .bits 8 1 []).capture.cells.read 8) 1690 = false
      ∧ (decAt .bits 8 1 (fourMoves ++ [.dec, .matcher])).script = fourMoves ++ ([.dec, .matcher] ++ []) :=
  ⟨rfl, ⟨rfl, rfl, rfl, rfl⟩, by decide, by decide, by decide, by decide, rfl⟩
theorem witness_CapReadReturnsTheEntry :
    (229 : CapIdx).toNat < (decAt .hdr 1 0 []).capture.count
      ∧ (decAt .hdr 1 0 []).capture.touched 229 = false := by decide
theorem witness_AbsentEntryFaults :
    (decAt .hdr 1 0 []).capture.count ≤ (230 : CapIdx).toNat
      ∧ (decAt .hdr 1 0 []).capture.touched 230 = false := by decide
theorem witness_WriteUnderDecodeReadsAnyValue :
    ∀ st ∈ [DecState.idle, .hdr],
      let s := { decAt st 1 0 [.capWrite ((1 : CapIdx).toNat) 77, .capture] with
        dec := { (decAt st 1 0 []).dec with capPort := some 1 } }
      s.script = .capWrite ((1 : CapIdx).toNat) 77 :: .capture :: [] ∧ s.dec.capPort = some 1
        ∧ s.capture.cells.wf = true ∧ (1 : CapIdx).toNat < s.capture.count
        ∧ s.capture.touched 1 = false := by decide
/-- `DEC` with the last bit space asked for and an entry, or the count, changed while it was busy. -/
def brokenAt (dirty : List Nat) (low : Option Nat) (script : List Act) : State :=
  { decAt .bits 228 111 script with
    dec := { (decAt .bits 228 111 []).dec with capPort := some 228 }
    capture := { (decAt .bits 228 111 []).capture with dirty := dirty, countLow := low } }

theorem witness_ChangedEntryReadsAnyValue :
    (brokenAt [228] none []).capture.touched 228 = true ∧ (brokenAt [] (some 228) []).capture.touched 228 = true := by
  decide
theorem witness_CountChangeMakesEntriesFree :
    ∀ n ∈ [228, 0, 65536], (brokenAt [] none [.capCount n, .capCount 230, .capture]).script
          = .capCount n :: .capCount 230 :: .capture :: []
        ∧ (brokenAt [] none [.capCount n, .capCount 230, .capture]).dec.state ≠ .idle
        ∧ (brokenAt [] none [.capCount n, .capCount 230, .capture]).dec.capPort = some 228
        ∧ (brokenAt [] none []).build.asCount n ≤ (228 : CapIdx).toNat := by decide
/-- An entry never read, or the count after `D_LEN`, is enough (log 20). -/
theorem witness_BrokenDutyFreesTheResult :
    ∀ s ∈ [brokenAt [229] none [], brokenAt [] (some 230) []],
      (s.withFetchWord 40 0x00069A069A).script = .matcher :: [] ∧ Act.matcher ≠ .reset
        ∧ s.dec.state ≠ .idle ∧ (s.withFetchWord 40 0x00069A069A).capture.broken = true := by decide
/-- The DECODE of such a state ends (log 20). -/
theorem witness_BrokenDutyFreesTheResult_ends :
    ∃ t : State, step ((brokenAt [229] none []).withFetchWord 40 0x00069A069A) = .next t ∧ t.dec.state = .idle :=
  ⟨_, rfl, by decide⟩
theorem witness_DecodeEndsWithOneOutcome_nomatch :
    ∃ t : State, step (lenAt 229 [.dec]) = .next t ∧ Act.dec ≠ .reset ∧ (lenAt 229 [.dec]).dec.state ≠ .idle
      ∧ (lenAt 229 [.dec]).capture.broken = false
      ∧ t.dec.state = .idle ∧ t.res ≠ (lenAt 229 [.dec]).res ∧ t.dec.state ≠ (lenAt 229 [.dec]).dec.state :=
  ⟨_, rfl, by decide, by decide, by decide, by decide, by decide, by decide⟩
/-- The header and the bit NoMatch, over a stable buffer: a placed MATCH that says no, in `D_HDR`, in `D_BITM`, and in
`D_BITS` after the one-space said no. -/
theorem witness_DecodeEndsWithOneOutcome_failures :
    ∀ x ∈ [(decAt .hdr 1 0 [], DecStatus.stNoMatchHeader), (decAt .bitm 227 111 [], .stNoMatchBit),
        ({ decAt .bits 6 0 [] with dec := { (decAt .bits 6 0 []).dec with zeroTest := true } }, .stNoMatchBit)],
      (match step (x.1.withFetchWord 40 0x007D00258) with
        | .next t => decide (x.1.capture.broken = false ∧ x.1.dec.state ≠ .idle ∧ t.dec.state = .idle
            ∧ t.res.status = x.2 ∧ t.res.errIdx = if x.2 = .stNoMatchBit then x.1.dec.i else 0)
        | _ => false) = true := by decide
/-- A state for each clause: `DEC` idle, at the length check, at header segments 0 and 3, at a bit mark, at a bit space
before and at the last cell; the match says yes to 600 for 600 and no to 2000 for 600. -/
theorem witness_MatchAnswerDrivesTheStep :
    (decAt .idle 0 0 []).dec.state = .idle ∧ (lenAt 230 []).dec.state = .len
      ∧ (decAt .hdr 1 0 []).dec.state = .hdr ∧ (decAt .hdr 4 0 []).dec.idx = 4
      ∧ (decAt .bitm 5 0 []).dec.state = .bitm ∧ (decAt .bits 226 110 []).dec.i.toNat ≠ 111
      ∧ (decAt .bits 228 111 []).dec.i.toNat = 111 ∧ (decAt .bits 228 111 []).dec.zeroTest = false
      ∧ matchTol .space 600 600 = true ∧ matchTol .space 2000 600 = false := by decide
/-- The success at cell 111: the MATCH of the last one-space is answered. -/
theorem witness_DecodeEndsWithOneOutcome_match :
    ∃ t : State, step ((decAt .bits 228 111 []).withFetchWord 40 0x00069A069A) = .next t ∧ Act.matcher ≠ .reset
      ∧ t.dec.state = .idle ∧ t.res.status = .stMatch := ⟨_, rfl, by decide, by decide, by decide⟩
theorem witness_DecodeForgetsOldScratch :
    (lenAt 230 [.dec]).script = .dec :: [] ∧ (lenAt 230 [.dec]).dec.state = .len
      ∧ (lenAt 230 [.dec]).sampledCount = 230 := by decide

/-- The cells of a buffer that holds a list of durations from index `k` on. -/
def cellsFrom (k : Nat) (l : List Nat) : Memory :=
  match l with
  | [] => []
  | d :: rest => (k, d) :: cellsFrom (k + 1) rest

theorem cellsFrom_read (l : List Nat) (k i : Nat) (h : k ≤ i) : (cellsFrom k l).read i = l.getD (i - k) 0 := by
  induction l generalizing k with
  | nil => rfl
  | cons d rest ih =>
    by_cases hk : i = k
    · simp [cellsFrom, Memory.read, hk]
    · have : i - k = (i - (k + 1)) + 1 := by omega
      simp [cellsFrom, Memory.read, hk, ih (k + 1) (by omega), this]

theorem bitCmds_intervals_length (f : Nat → Bool) (l : List Nat) :
    ((l.flatMap fun c => bitCmds (f c)).filterMap EmitCmd.interval).length = 2 * l.length := by
  induction l with
  | nil => rfl
  | cons a rest ih =>
    simp only [List.flatMap_cons, List.filterMap_append, List.length_append, ih, List.length_cons]
    simp [bitCmds, EmitCmd.interval]
    omega

/-- R67: 229 intervals, and the gap. -/
theorem loop_length (v : Payload) (gap : Nat) : (loopOf (traceOf v 112) gap).length = 230 := by
  have h : traceOf v 112 = (.setCarrier 38 :: (headerCmds ++ (cellCmds v 112 ++ [.mark 600]))) ++ [.space 0] := by
    simp [traceOf, trailerCmds]
  have hc := bitCmds_intervals_length (fun c => v.getLsbD (112 - 1 - c)) (List.range 112)
  rw [List.length_range] at hc
  rw [loopOf, h, List.dropLast_concat]
  simp only [List.filterMap_cons, List.filterMap_append, List.length_cons, List.length_append, cellCmds,
    EmitCmd.interval, hc]
  rfl

/-- The operands of a trace are constants of the Timing Table and 0. -/
theorem trace_interval_lt {v : Payload} {n : Nat} {c : EmitCmd} {d : Nat} (h : c ∈ traceOf v n)
    (hd : EmitCmd.interval c = some d) : d < 2 ^ 16 := by
  have hb : ∀ b c, c ∈ bitCmds b → ∀ d, EmitCmd.interval c = some d → d < 2 ^ 16 := by
    intro b c hc d hd
    cases b <;> rcases List.mem_pair.mp hc with rfl | rfl <;> cases hd <;> decide
  simp only [traceOf, headerCmds, cellCmds, trailerCmds, List.mem_cons, List.mem_append, List.mem_flatMap,
    List.not_mem_nil, or_false] at h
  rcases h with rfl | (rfl | rfl | rfl | rfl) | ⟨k, -, hk⟩ | rfl | rfl
  · cases hd
  all_goals first | exact hb _ _ hk _ hd | (cases hd; decide)

theorem cellsFrom_mem {k : Nat} {l : List Nat} {c : Nat × Nat} (h : c ∈ cellsFrom k l) : c.2 ∈ l := by
  induction l generalizing k with
  | nil => cases h
  | cons d rest ih =>
    rcases List.mem_cons.mp h with rfl | h
    · exact List.mem_cons_self
    · exact List.mem_cons_of_mem _ (ih h)

/-- A state about to run a DECODE over a loopback buffer. -/
def decodeReady (v : Payload) (gap : Nat) : State :=
  { State.reset with
    hostPort := some decodeWordH
    script := decodeScript
    capture := { Capture.start with count := 230, cells := cellsFrom 0 (loopOf (traceOf v 112) gap) } }

/-- Every number of it fits the default build, whatever the payload is. -/
theorem decodeReady_sized (v : Payload) {gap : Nat} (h : gap < 2 ^ 16) : (decodeReady v gap).Sized := by
  refine ⟨rfl, fun c hc => ?_, show 230 < 2 ^ 16 by decide, show 0 < 2 ^ 8 by decide, show 0 < 2 ^ 16 by decide,
    fun x hx => (List.not_mem_nil hx).elim, show 0 < 2 ^ 16 by decide⟩
  rcases List.mem_cons.mp (cellsFrom_mem hc) with h' | h'
  · exact h' ▸ h
  · obtain ⟨x, hx, hd⟩ := List.mem_filterMap.mp h'
    exact trace_interval_lt (List.mem_of_mem_dropLast hx) hd

theorem witness_DecodeRun :
    (decodeReady 5 20000).Sized ∧ (decodeReady 5 20000).dec.state = .idle ∧ (decodeReady 5 20000).dec.Fresh
      ∧ (decodeReady 5 20000).hostPort = some decodeWordH ∧ (decodeReady 5 20000).script = decodeScript :=
  ⟨decodeReady_sized _ (by decide), rfl, ⟨rfl, rfl, rfl, rfl⟩, rfl, rfl⟩
theorem witness_FrameDecodesToItsPayload :
    (decodeReady 5 20000).capture.count = (loopOf (traceOf 5 112) 20000).length
      ∧ ∀ i : Nat, i < 230 → (decodeReady 5 20000).capture.cells.read i = (loopOf (traceOf 5 112) 20000).getD i 0 :=
  ⟨(loop_length 5 20000).symm, fun i _ => cellsFrom_read _ 0 i (Nat.zero_le i)⟩
theorem witness_TolerancePredicateIsAnyWithMP :
    MP1 (fun _ a n => a = n) ∧ MP2 (fun _ a n => a = n) ∧ MP3 (fun _ a n => a = n) :=
  ⟨fun _ _ _ => by simp, ⟨by decide, by decide⟩, show decide ((600 : Nat) = 1690) = false by decide⟩
theorem witness_HostOutputs :
    State.reset.res.valid = false ∧ (busyState []).enc.phase ≠ .idle ∧ (busyState []).dec.state ≠ .idle
      ∧ ({ State.reset.res with valid := true } : Result).valid = true
      ∧ ∀ st ∈ [DecStatus.stNone, .stMatch, .stNoMatchLength, .stNoMatchHeader, .stNoMatchBit],
          ({ State.reset with res := { Result.reset with status := st } } : State).res.status = st := by decide
theorem witness_ResetValues : (busyState [.reset]).script = .reset :: [] := rfl
theorem witness_ResetAbandonsOperations :
    (busyState [.reset]).script = .reset :: [] ∧ (encAt .hm1 3 [.reset]).script = .reset :: []
      ∧ (encAt .hm1 3 [.reset]).enc.port = none := by decide
theorem witness_ResetMeetsInvariant : Build.default.legal = true ∧ Build.legal ⟨13, 8, 1⟩ = true := by decide
theorem witness_StepKeepsBuild : ∃ t : State, step (busyState [.reset]) = .next t := ⟨_, rfl⟩
theorem witness_StepKeepsInvariant :
    (busyState [.capture]).Inv ∧ ∃ t : State, step (busyState [.capture]) = .next t := ⟨witness_inv _, _, rfl⟩
theorem witness_InvariantExcludesFaults :
    State.Inv { decAt .bits 6 0 [.host] with hostPort := some (encodeWordH 0 113) }
      ∧ step { decAt .bits 6 0 [.host] with hostPort := some (encodeWordH 0 113) }
          = .refused (.encodeWidthUndefined 113) := ⟨witness_inv_idle _ _, rfl⟩
theorem witness_OnlyEntriesOneTo228AreRead : (busyState []).Inv ∧ (busyState []).dec.capPort = some 1 :=
  ⟨witness_inv _, rfl⟩
theorem witness_BlockNeverWritesTheBuffer :
    ∃ t : State, step (busyState [.capture]) = .next t ∧ (∀ i d, Act.capture ≠ .capWrite i d)
      ∧ ∀ n, Act.capture ≠ .capCount n := ⟨_, rfl, by simp, by simp⟩
/-- A write and a count, with `DEC` idle and busy, at the lowest index and above every width; a count that is cut. -/
theorem witness_CaptureActs :
    ∀ st ∈ [DecState.idle, .hdr], ∀ x ∈ [(0, 0), (6, 77), (65536, 65536)],
      (decAt st 1 0 [.capWrite x.1 x.2]).script = .capWrite x.1 x.2 :: []
        ∧ (decAt st 1 0 [.capWrite x.1 x.2]).capture.cells.wf = true
        ∧ (decAt st 1 0 [.capCount x.1]).script = .capCount x.1 :: [] := by decide
/-- A step about to read, a CAPREAD outstanding, a MATCH outstanding, and `DEC` idle. -/
theorem witness_DecoderWaitsForItsAnswer :
    (∀ st ∈ [DecState.hdr, .bitm, .bits], (decAt st 5 0 [.dec]).script = .dec :: []
        ∧ ((decAt st 5 0 [.dec]).dec.state = .hdr ∨ (decAt st 5 0 [.dec]).dec.state = .bitm
            ∨ (decAt st 5 0 [.dec]).dec.state = .bits)
        ∧ (decAt st 5 0 [.dec]).dec.capPort = none ∧ (decAt st 5 0 [.dec]).dec.matchPort = none
        ∧ (decAt st 5 0 [.dec]).dec.entry = none)
      ∧ ((busyState [.dec]).script = .dec :: [] ∧ (busyState [.dec]).dec.state = .hdr
        ∧ (busyState [.dec]).dec.capPort.isSome = true)
      ∧ ((decAt .bits 6 0 []).withFetchWord 40 0x007D00258).dec.matchPort.isSome = true
      ∧ (decAt .idle 0 0 [.dec]).dec.state = .idle := by decide
theorem witness_AgentsCommute :
    ∃ t u : State, runAct .emitter (busyState []) = .next t ∧ runAct .capture (busyState []) = .next u :=
  ⟨_, _, rfl, rfl⟩
theorem witness_AgentsShareNoState :
    (∃ t : State, runAct .enc (encAt .hm1 3 []) = .next t) ∧ ∃ t : State, runAct .dec (lenAt 230 []) = .next t :=
  ⟨⟨_, rfl⟩, _, rfl⟩

end Sys2Proof.Tests
end

/-! The encoder: what ENCODE answers (R81, R93), what an emitter word on its port does (R64, R91), and one step
of `ENC`, its command issued and completed (R82 to R88). -/

namespace Sys2Proof.Machine

open Sys2Proof

/-! ENCODE. -/

theorem State.encBusy_eq_false {s : State} : s.encBusy = false ↔ s.enc.phase = .idle := by
  simp [State.encBusy]

theorem State.encBusy_eq_true {s : State} : s.encBusy = true ↔ s.enc.phase ≠ .idle := by
  simp [State.encBusy]

theorem legalWidth_iff {n : BitNo} : legalWidth n = true ↔ n.toNat ≤ 112 := by
  simp [legalWidth]

theorem exec_encode_accepted {p : Payload} {n : BitNo} {s : State} (hs : s.enc.phase = .idle) (hn : n.toNat ≤ 112) :
    exec (.encode p n) s = .next (s.acceptEncode p n) := by
  simp [exec, execEncode, State.encBusy_eq_false.mpr hs, legalWidth_iff.mpr hn]

theorem exec_encode_busy {p : Payload} {n : BitNo} {s : State} (hs : s.enc.phase ≠ .idle) :
    exec (.encode p n) s = .next s := by
  simp [exec, execEncode, State.encBusy_eq_true.mpr hs]

theorem exec_encode_refused {p : Payload} {n : BitNo} {s : State} (hs : s.enc.phase = .idle) (hn : 112 < n.toNat) :
    exec (.encode p n) s = .refused (.encodeWidthUndefined n) := by
  have hw : ¬legalWidth n = true := by rw [legalWidth_iff]; omega
  simp [exec, execEncode, State.encBusy_eq_false.mpr hs, hw]

/-- Settles O10: an idle encoder answers `acceptEncode`, a busy one the state as it is. -/
theorem encodeIsAccepted : Obligations.EncodeIsAccepted := by
  refine ⟨fun p n s hs hn => ⟨s.acceptEncode p n, exec_encode_accepted hs hn, ?_⟩, fun p n s => exec_encode_busy⟩
  simp [State.encBusy, State.SameCapture, State.SameBuffer]

/-- Settles O11: an idle encoder tests the width before it accepts. -/
theorem encodeOverCapacityIsRefused : Obligations.EncodeOverCapacityIsRefused :=
  fun _ _ _ => exec_encode_refused

/-! The emitter commands as words and as instructions. -/

theorem exec_toInstr (c : EmitCmd) (s : State) : exec c.toInstr s = .next (s.runCommand c) := by
  cases c <;> rfl

theorem emitWordOf_div {b : Build} {eop arg : Nat} (h : b.durFits arg = true) :
    emitWordOf b eop arg / 2 ^ b.durW = eop := by
  have harg : arg < 2 ^ b.durW := by simpa [Build.durFits] using h
  rw [emitWordOf, Nat.mul_comm, Nat.mul_add_div (Nat.two_pow_pos _), Nat.div_eq_of_lt harg, Nat.add_zero]

theorem asDur_emitWordOf {b : Build} {eop arg : Nat} (h : b.durFits arg = true) :
    b.asDur (emitWordOf b eop arg) = arg := by
  have harg : arg < 2 ^ b.durW := by simpa [Build.durFits] using h
  rw [Build.asDur, emitWordOf, Nat.mul_add_mod', Nat.mod_eq_of_lt harg]

/-- Format E decodes back: the opcode is read above the `DUR_W` bits of the operand (R64). -/
theorem decode_emitCmd_word {b : Build} {c : EmitCmd} (h : c.toInstr.wellFormed b = true) :
    decode b (.emitter (c.word b)) = .ok c.toInstr := by
  cases c <;>
    simp [decode, decodeEmit, EmitCmd.word, EmitCmd.toInstr, emitWordOf_div h, asDur_emitWordOf h]

/-! One step of `ENC`. -/

theorem Encoder.command_of_busy {e : Encoder} (h : e.phase ≠ .idle) : ∃ c, e.command = some c := by
  cases hp : e.phase <;> simp [Encoder.command, hp] at h ⊢

/-- A legal build has at least 13 bits for a duration, so every table duration fits (D16). -/
theorem Build.durFits_of_legal {b : Build} (hb : b.legal = true) {d : Nat} (hd : d < 2 ^ 13) : b.durFits d = true := by
  have hw : 13 ≤ b.durW := by
    simp only [Build.legal, Bool.and_eq_true, decide_eq_true_eq] at hb
    exact hb.1
  have hpow : 2 ^ 13 ≤ 2 ^ b.durW := Nat.pow_le_pow_right (by decide) hw
  simpa [Build.durFits] using hd.trans_le hpow

theorem bitSpaceDur_lt (x : Bool) : bitSpaceDur x < 2 ^ 13 := by
  cases x <;> decide

/-- `ENC` issues only commands of the build: their operands fit `DUR_W` bits (R64, D16). -/
theorem Encoder.command_wellFormed {b : Build} (hb : b.legal = true) {e : Encoder} {c : EmitCmd}
    (h : e.command = some c) : c.toInstr.wellFormed b = true := by
  cases hp : e.phase <;> simp only [Encoder.command, hp, Option.some.injEq, reduceCtorEq] at h <;> subst h
  case bitSpace => exact Build.durFits_of_legal hb (bitSpaceDur_lt _)
  all_goals exact Build.durFits_of_legal hb (by decide)

/-- With a command outstanding that the build can send, EMITTER's move runs it (R91, R135). -/
theorem runAct_emitter {s : State} {c : EmitCmd} (hp : s.enc.port = some (c.word s.build))
    (hc : c.toInstr.wellFormed s.build = true) : runAct .emitter s = .next (s.runCommand c) := by
  have hf : s.fetch .emitter = some (.emitter (c.word s.build)) := by simp [State.fetch, hp]
  rw [runAct_word hf (decode_emitCmd_word hc), exec_toInstr]

theorem Encoder.issue_eq {b : Build} {e : Encoder} {c : EmitCmd} (hp : e.port = none) (hc : e.command = some c) :
    e.issue b = { e with port := some (c.word b), trace := e.trace ++ [c] } := by
  simp [Encoder.issue, hp, hc]

theorem Encoder.complete_issue {b : Build} {e : Encoder} {c : EmitCmd} (hp : e.port = none)
    (hc : e.command = some c) : (e.issue b).complete =
      { e with
        port := none
        trace := e.trace ++ [c]
        phase := e.phase.next e.cnt
        cnt := if e.phase = .bitSpace then e.cnt - 1 else e.cnt } := by
  rw [Encoder.issue_eq hp hc]; rfl

/-- The moves of `ENC` and EMITTER issue the command of the phase and run it to its end (R91). -/
theorem run_encoderStep {s : State} {rest : List Act} {c : EmitCmd} (hb : s.build.legal = true)
    (hs : s.script = .enc :: .emitter :: rest) (hp : s.enc.port = none) (hc : s.enc.command = some c) :
    Host.Core.run Sys2Proof.core 2 s
      = .next { s with script := rest, emitter := s.emitter.run c, enc := (s.enc.issue s.build).complete } := by
  have hissue : step s = .next { s with script := .emitter :: rest, enc := s.enc.issue s.build } := by
    rw [step_cons hs, runAct_move rfl]; rfl
  have hcomplete : step { s with script := .emitter :: rest, enc := s.enc.issue s.build }
      = .next { s with script := rest, emitter := s.emitter.run c, enc := (s.enc.issue s.build).complete } := by
    rw [step_cons rfl]
    exact runAct_emitter (by simp [Encoder.issue_eq hp hc]) (Encoder.command_wellFormed hb hc)
  rw [run_succ hissue, run_succ hcomplete, run_zero]

theorem BitNo.toNat_pred {n : BitNo} (h : 1 ≤ n.toNat) : (n - 1).toNat = n.toNat - 1 :=
  BitVec.toNat_sub_of_le h

theorem cellPhase_eq (n : BitNo) : cellPhase n = if n.toNat = 0 then .trailMark else .bitMark := by
  simp [cellPhase, ← BitVec.toNat_inj]

/-- The command and the next phase, read off at the phase that `ENC` is in. -/
theorem Encoder.step_of_phase {e : Encoder} {c c' : EmitCmd} {p q : EncPhase} (hc : e.command = some c)
    (hp : e.phase = p) (hc' : ({ e with phase := p } : Encoder).command = some c') (hq : p.next e.cnt = q) :
    c = c' ∧ e.phase.next e.cnt = q := by
  subst hp
  exact ⟨Option.some.inj (hc.symm.trans hc'), hq⟩

/-- Inside a cell the selected payload bit is number `ENC_CNT - 1` as a number: the 7-bit count does not wrap (R86). -/
theorem Encoder.command_bitSpace {e : Encoder} (h : 1 ≤ e.cnt.toNat) :
    ({ e with phase := .bitSpace } : Encoder).command
      = some (.space (if e.data.getLsbD (e.cnt.toNat - 1) then 1690 else 600)) := by
  rw [← BitNo.toNat_pred h]; rfl

theorem EncPhase.next_bitSpace {n : BitNo} (h : 1 ≤ n.toNat) :
    EncPhase.next n .bitSpace = if n.toNat - 1 = 0 then .trailMark else .bitMark := by
  rw [← BitNo.toNat_pred h]; exact cellPhase_eq (n - 1)

/-- Settles O13: the two moves run the command of the phase; each phase then names its command and its successor. -/
theorem encoderStepPerPhase : Obligations.EncoderStepPerPhase := by
  intro s rest hb hs hp hbusy hcell
  obtain ⟨c, hc⟩ := Encoder.command_of_busy hbusy
  have hcnt : s.enc.phase = .bitSpace → 1 ≤ s.enc.cnt.toNat := fun h => hcell (by rw [h]; rfl)
  have hrun := run_encoderStep hb hs hp hc
  rw [Encoder.complete_issue hp hc] at hrun
  refine ⟨_, c, hrun, rfl, rfl, rfl, ?cnt,
    fun h => Encoder.step_of_phase hc h rfl rfl,
    fun h => Encoder.step_of_phase hc h rfl rfl,
    fun h => Encoder.step_of_phase hc h rfl rfl,
    fun h => Encoder.step_of_phase hc h rfl rfl,
    fun h => Encoder.step_of_phase hc h rfl (cellPhase_eq _),
    fun h => Encoder.step_of_phase hc h rfl rfl,
    fun h => Encoder.step_of_phase hc h (Encoder.command_bitSpace (hcnt h)) (EncPhase.next_bitSpace (hcnt h)),
    fun h => Encoder.step_of_phase hc h rfl rfl,
    fun h => ?trailSpace, ⟨rfl, rfl, rfl, rfl, rfl, ⟨fun _ => rfl, rfl⟩, rfl, rfl⟩, rfl⟩
  case cnt =>
    split
    · next h => exact BitNo.toNat_pred (hcnt h)
    · rfl
  case trailSpace =>
    obtain ⟨rfl, hidle⟩ := Encoder.step_of_phase hc h rfl rfl
    exact ⟨rfl, hidle, State.encBusy_eq_false.mpr hidle, rfl⟩

end Sys2Proof.Machine

/-! Runs of the decoder: what a list of moves leads to, whatever moves follow, and how `DEC`, CAPTURE and MATCHER
answer one query (R102 to R109, R136, R138). -/

namespace Sys2Proof.Machine

open Sys2Proof

/-! Runs of given moves. -/

/-- A run that reaches `t` in its first `j` steps goes on from `t`. -/
theorem run_add {j k : Nat} {s t : State} (h : Host.Core.run Sys2Proof.core j s = .next t) :
    Host.Core.run Sys2Proof.core (j + k) s = Host.Core.run Sys2Proof.core k t := by
  induction j generalizing s with
  | zero => cases h; rw [Nat.zero_add]
  | succ j ih =>
    rw [Nat.succ_add]
    simp only [Host.Core.run] at h ⊢
    split at h
    · exact ih h
    · cases h
    · cases h

/-- The state with other moves to come. -/
def State.withScript (l : List Act) (s : State) : State := { s with script := l }

@[simp] theorem State.withScript_build (l : List Act) (s : State) : (s.withScript l).build = s.build := rfl
@[simp] theorem State.withScript_enc (l : List Act) (s : State) : (s.withScript l).enc = s.enc := rfl
@[simp] theorem State.withScript_dec (l : List Act) (s : State) : (s.withScript l).dec = s.dec := rfl
@[simp] theorem State.withScript_res (l : List Act) (s : State) : (s.withScript l).res = s.res := rfl
@[simp] theorem State.withScript_emitter (l : List Act) (s : State) : (s.withScript l).emitter = s.emitter := rfl
@[simp] theorem State.withScript_capture (l : List Act) (s : State) : (s.withScript l).capture = s.capture := rfl
@[simp] theorem State.withScript_hostPort (l : List Act) (s : State) : (s.withScript l).hostPort = s.hostPort := rfl
@[simp] theorem State.withScript_draws (l : List Act) (s : State) : (s.withScript l).draws = s.draws := rfl
@[simp] theorem State.withScript_script (l : List Act) (s : State) : (s.withScript l).script = l := rfl

/-- The moves `l` lead from `s` to `t`, whatever moves come after them; the scripts of `s` and `t` do not matter. -/
def Leads (l : List Act) (s t : State) : Prop :=
  ∀ rest : List Act, Host.Core.run Sys2Proof.core l.length (s.withScript (l ++ rest)) = .next (t.withScript rest)

theorem Leads.nil (s : State) : Leads [] s s := fun _ => rfl

theorem Leads.run {l rest : List Act} {s t : State} (h : Leads l s t) (hs : s.script = l ++ rest) :
    Host.Core.run Sys2Proof.core l.length s = .next (t.withScript rest) := by
  rw [← h rest, ← hs]; rfl

theorem Leads.trans {l₁ l₂ : List Act} {s t u : State} (h₁ : Leads l₁ s t) (h₂ : Leads l₂ t u) :
    Leads (l₁ ++ l₂) s u := by
  intro rest
  rw [List.length_append, List.append_assoc, run_add (h₁ (l₂ ++ rest)), h₂ rest]

/-- One move is one step. -/
theorem Leads.step {a : Act} {rest : List Act} {s t : State} (h : Leads [a] s t) (hs : s.script = a :: rest) :
    step s = .next (t.withScript rest) := by
  have hrun := h.run (rest := rest) hs
  simp only [List.length_singleton, Host.Core.run] at hrun
  split at hrun
  · next hstep => exact Eq.trans hstep hrun
  · cases hrun
  · cases hrun

theorem leads_of_runAct {a : Act} {s t : State}
    (h : ∀ rest, runAct a (s.withScript rest) = .next (t.withScript rest)) : Leads [a] s t :=
  fun rest => run_succ ((step_cons rfl).trans (h rest))

/-! The operations of `DEC` do not look at the script. -/

theorem State.finish_withScript (f : Option NoMatch) (v : Payload) (s : State) (l : List Act) :
    (s.withScript l).finish f v = (s.finish f v).withScript l := by
  unfold State.finish
  cases h : s.capture.broken <;> simp [h] <;> rfl

theorem State.raiseNoMatch_withScript (r : NoMatch) (s : State) (l : List Act) :
    (s.withScript l).raiseNoMatch r = (s.raiseNoMatch r).withScript l :=
  State.finish_withScript (some r) s.dec.acc
    { s with dec := { s.dec with state := .idle, entry := none, zeroTest := false } } l

theorem State.checkLength_withScript (s : State) (l : List Act) :
    (s.withScript l).checkLength = s.checkLength.withScript l := by
  unfold State.checkLength
  by_cases h : s.sampledCount = Config.capExpect
  · have h' : (s.withScript l).sampledCount = Config.capExpect := h
    simp only [h, h', ne_eq, not_true_eq_false, if_false]; rfl
  · have h' : ¬(s.withScript l).sampledCount = Config.capExpect := h
    simp only [h, h', ne_eq, not_false_eq_true, if_true]
    exact State.raiseNoMatch_withScript _
      { s with draws := if s.capture.countLow.isSome then s.draws + 1 else s.draws } l

theorem State.takeBit_withScript (b : Bool) (s : State) (l : List Act) :
    (s.withScript l).takeBit b = (s.takeBit b).withScript l := by
  unfold State.takeBit
  by_cases h : s.dec.i.toNat = Config.timing.bitCount - 1
  · simp only [State.withScript_dec, h, if_true]
    exact State.finish_withScript _ _ { s with dec := { s.dec.consume .idle with acc := appendBit s.dec.acc b } } l
  · simp only [State.withScript_dec, h, if_false]; rfl

theorem State.useAnswer_withScript (ok : Bool) (s : State) (l : List Act) :
    (s.withScript l).useAnswer ok = (s.useAnswer ok).withScript l := by
  unfold State.useAnswer
  simp only [State.withScript_dec, State.raiseNoMatch_withScript, State.takeBit_withScript]
  cases s.dec.state with
  | idle => rfl
  | len => rfl
  | hdr => cases ok <;> rfl
  | bitm => cases ok <;> rfl
  | bits => cases ok <;> cases s.dec.zeroTest <;> rfl

/-! Moves that find nothing to do. -/

theorem leads_capture_idle {s : State} (h : s.dec.capPort = none) : Leads [.capture] s s :=
  leads_of_runAct fun _ => runAct_move (by simp [State.fetch, h])

theorem leads_matcher_idle {s : State} (h : s.dec.matchPort = none) : Leads [.matcher] s s :=
  leads_of_runAct fun _ => runAct_move (by simp [State.fetch, h])

/-- A move of `DEC` is `moveDec`. -/
theorem leads_dec {s t : State} (h : ∀ l, (s.withScript l).moveDec = t.withScript l) : Leads [.dec] s t :=
  leads_of_runAct fun l => (runAct_move rfl).trans (congrArg _ (h l))

theorem leads_dec_idle {s : State} (h : s.dec.state = .idle) : Leads [.dec] s s :=
  leads_dec fun _ => by simp [State.moveDec, h]

/-! The length check. -/

theorem State.moveDec_len {s : State} (h : s.dec.state = .len) : s.moveDec = s.checkLength := by
  simp [State.moveDec, h]

theorem leads_checkLength {s : State} (h : s.dec.state = .len) : Leads [.dec] s s.checkLength :=
  leads_dec fun l => (State.moveDec_len (s := s.withScript l) h).trans (s.checkLength_withScript l)

theorem Capture.countLow_stable {c : Capture} (h : c.broken = false) : c.countLow = none := by
  simp only [Capture.broken, Bool.or_eq_false_iff, Option.isSome_eq_false_iff, Option.isNone_iff_eq_none] at h
  exact h.2

theorem State.sampledCount_stable {s : State} (h : s.capture.broken = false) : s.sampledCount = s.capture.count := by
  simp [State.sampledCount, Capture.countLow_stable h]

/-- The state in which a NoMatch ends a DECODE over a stable buffer (R156). -/
def State.failed (r : NoMatch) (s : State) : State :=
  { s with
    dec := { s.dec with state := .idle, entry := none, zeroTest := false }
    res := { s.res with status := failureStatus r, errIdx := failureErrIdx r s.res.errIdx } }

theorem State.raiseNoMatch_eq_failed {s : State} (r : NoMatch) (h : s.capture.broken = false) :
    s.raiseNoMatch r = s.failed r :=
  State.raiseNoMatch_stable r h

theorem State.checkLength_fails {s : State} (hst : s.capture.broken = false) (hn : s.capture.count ≠ 230) :
    s.checkLength = s.failed .length := by
  rw [← State.raiseNoMatch_eq_failed _ hst]
  obtain ⟨-, h⟩ | ⟨h, -⟩ := s.checkLength_cases
  · simpa [Capture.countLow_stable hst] using h
  · exact absurd ((State.sampledCount_stable hst).symm.trans h) hn

theorem State.checkLength_passes {s : State} (hst : s.capture.broken = false) (hn : s.capture.count = 230) :
    s.checkLength =
      { s with dec := { s.dec with state := .hdr, idx := 1, i := 0, acc := 0, entry := none, zeroTest := false } } := by
  obtain ⟨h, -⟩ | ⟨-, h⟩ := s.checkLength_cases
  · exact absurd ((State.sampledCount_stable hst).trans hn) h
  · simpa [Capture.countLow_stable hst] using h

/-- What `DEC` does over a buffer that it leaves alone is inside `DEC`. -/
theorem State.sameOutsideDecoder_of_eq {s t : State} (hb : t.build = s.build) (he : t.enc = s.enc)
    (hm : t.emitter = s.emitter) (hh : t.hostPort = s.hostPort) (hc : t.capture = s.capture) :
    s.SameOutsideDecoder t :=
  ⟨hb, he, hm, hh, ⟨fun _ => by rw [hc], by rw [hc]⟩, by rw [hc], by rw [hc]⟩

theorem State.sameRecord_of_eq {s t : State} (h : t.res = s.res) : s.SameRecord t := by
  simp [State.SameRecord, h]

/-- Settles O27: the check raises NoMatch(length) or sets the header's registers, by the count. -/
theorem lengthCheckStep : Obligations.LengthCheckStep := by
  intro s rest hs hlen hst
  refine ⟨s.checkLength.withScript rest, (leads_checkLength hlen).step hs, ?_⟩
  by_cases hn : s.capture.count = 230
  · rw [State.checkLength_passes hst hn]
    exact ⟨rfl, rfl, rfl, rfl, rfl, State.sameOutsideDecoder_of_eq rfl rfl rfl rfl rfl, State.sameRecord_of_eq rfl,
      rfl, fun h => absurd hn h, fun _ => ⟨rfl, rfl, rfl, rfl, rfl⟩⟩
  · rw [State.checkLength_fails hst hn]
    exact ⟨rfl, rfl, rfl, rfl, rfl, State.sameOutsideDecoder_of_eq rfl rfl rfl rfl rfl, ⟨rfl, rfl, rfl, rfl⟩, rfl,
      fun _ => ⟨rfl, rfl, rfl, rfl, rfl, rfl⟩, fun h => absurd h hn⟩

/-! One query: a CAPREAD of the next entry, or a MATCH of the entry read. -/

/-- Above the lower duration of a MATCH request stand the role and the upper one (R66). -/
theorem matchWordOf_div {b : Build} {r : Role} {a n : Nat} (hn : b.durFits n = true) :
    matchWordOf b r a n / 2 ^ b.durW = roleBit r * 2 ^ b.durW + a := by
  have hn' : n < 2 ^ b.durW := by simpa [Build.durFits] using hn
  rw [matchWordOf, Nat.mul_comm, Nat.mul_add_div (Nat.two_pow_pos _), Nat.div_eq_of_lt hn', Nat.add_zero]

/-- The MATCH request decodes back: the role is read above the two durations (R66). -/
theorem decode_matchWordOf {b : Build} {r : Role} {a n : Nat}
    (h : (Instr.matchDur r a n).wellFormed b = true) :
    decode b (.matcher (matchWordOf b r a n)) = .ok (.matchDur r a n) := by
  obtain ⟨ha, hn⟩ : b.durFits a = true ∧ b.durFits n = true := by simpa [Instr.wellFormed] using h
  have ha' : a < 2 ^ b.durW := by simpa [Build.durFits] using ha
  have hn' : n < 2 ^ b.durW := by simpa [Build.durFits] using hn
  have hrole : matchWordOf b r a n / 2 ^ (2 * b.durW) = roleBit r := by
    rw [two_mul, Nat.pow_add, ← Nat.div_div_eq_div_mul, matchWordOf_div hn, Nat.mul_comm,
      Nat.mul_add_div (Nat.two_pow_pos _), Nat.div_eq_of_lt ha', Nat.add_zero]
  have hactual : b.asDur (matchWordOf b r a n / 2 ^ b.durW) = a := by
    rw [matchWordOf_div hn, Build.asDur, Nat.mul_add_mod', Nat.mod_eq_of_lt ha']
  have hnominal : b.asDur (matchWordOf b r a n) = n := by
    rw [Build.asDur, matchWordOf, Nat.mul_add_mod', Nat.mod_eq_of_lt hn']
  cases r <;> simp [decode, decodeMatch, hrole, roleBit, hactual, hnominal]

/-- `DEC` asks only for table durations, which every legal build holds (R69, D16). -/
theorem Decoder.matchReq_wellFormed {b : Build} {mode : BitMarkMode} {d : Decoder} {x : Nat} {r : MatchReq}
    (hb : b.legal = true) (hx : b.durFits x = true) (h : d.matchReq mode x = some r) :
    (Instr.matchDur r.role r.actual r.nominal).wellFormed b = true := by
  have hfit : ∀ n < 2 ^ 13, ∀ role, (Instr.matchDur role x n).wellFormed b = true := fun n hn role => by
    simp [Instr.wellFormed, hx, Build.durFits_of_legal hb hn]
  have hheader : headerNominal d.segment < 2 ^ 13 := by
    unfold headerNominal; split_ifs <;> decide
  have hspace : (if d.zeroTest then Config.timing.zeroSpace else Config.timing.oneSpace) < 2 ^ 13 := by
    split_ifs <;> decide
  cases hs : d.state <;> simp only [Decoder.matchReq, hs, reduceCtorEq, Option.some.injEq] at h
  case hdr => subst h; exact hfit _ hheader _
  case bitm => cases mode <;> cases h <;> exact hfit Config.timing.bitMark (by decide) _
  case bits => subst h; exact hfit _ hspace _

/-- The queries `l` are recorded as made. -/
def State.asked (l : List Query) (s : State) : State := { s with dec := { s.dec with queries := s.dec.queries ++ l } }

/-- `DEC` is inside a step: it has read `x`, and the one-space test has said no or not (log 8). -/
def State.holding (x : Nat) (zeroTest : Bool) (s : State) : State :=
  { s with dec := { s.dec with entry := some x, zeroTest := zeroTest } }

/-- The MATCH request `r` is outstanding. -/
def State.asking (r : MatchReq) (s : State) : State :=
  { s with dec := { s.dec with matchPort := some (r.word s.build) } }

/-- The entry that `DEC` reads next. -/
abbrev State.nextEntry (s : State) : Nat := s.capture.cells.read s.dec.idx.toNat

/-- The buffer can be decoded: the build is legal, every entry is a duration of it, and CAPTURE changed nothing since
the acceptance. -/
structure State.Readable (s : State) : Prop where
  legal : s.build.legal = true
  fits : ∀ a : Nat, s.build.durFits (s.capture.cells.read a) = true
  stable : s.capture.broken = false

theorem Memory.read_lt {m : Memory} {w : Nat} (h : ∀ c ∈ m, c.2 < 2 ^ w) (a : Nat) : m.read a < 2 ^ w := by
  induction m with
  | nil => exact Nat.two_pow_pos w
  | cons c rest ih =>
    obtain ⟨hc, hrest⟩ := List.forall_mem_cons.mp h
    rw [Memory.read]
    split
    · exact hc
    · exact ih hrest

theorem State.readable_of_sized {s : State} (h : s.Sized) (hst : s.capture.broken = false) : s.Readable := by
  obtain ⟨hlegal, hcells, -⟩ := h
  exact ⟨hlegal, fun a => by simpa [Build.durFits] using Memory.read_lt hcells a, hst⟩

theorem State.moveDec_scanning {s : State} (h : s.dec.state.scanning = true) : s.moveDec = s.advanceScan := by
  cases hs : s.dec.state <;> simp [hs, DecState.scanning] at h <;> simp [State.moveDec, hs]

/-- In a step of `DEC` that reads an entry, with the entry not read, its move issues the CAPREAD. -/
theorem leads_issueRead {s : State} (hscan : s.dec.state.scanning = true) (hf : s.dec.Fresh) :
    Leads [.dec] s s.issueRead := by
  obtain ⟨hcap, hmatch, hentry, -⟩ := hf
  refine leads_dec fun l => (State.moveDec_scanning (s := s.withScript l) hscan).trans ?_
  simp [State.advanceScan, hcap, hmatch, hentry]; rfl

/-- CAPTURE answers a CAPREAD of a present entry that was not changed under the DECODE (R136). -/
theorem leads_answerRead {s : State} {i : CapIdx} (hp : s.dec.capPort = some i) (hi : i.toNat < s.capture.count)
    (ht : s.capture.touched i = false) : Leads [.capture] s (s.answerRead i (s.capture.cells.read i.toNat)) := by
  refine leads_of_runAct fun l => ?_
  rw [runAct_word (w := .capture i) (i := .capRead i) (by simp [State.fetch, hp]) rfl]
  simp [exec, execCapRead, State.readEntry, ht, hi]; rfl

/-- With the entry read, the move of `DEC` issues the MATCH of the step. -/
theorem leads_issueMatch {s : State} {x : Nat} {r : MatchReq} (hscan : s.dec.state.scanning = true)
    (hcap : s.dec.capPort = none) (hmatch : s.dec.matchPort = none) (hx : s.dec.entry = some x)
    (hr : s.dec.matchReq Config.bitMarkMode x = some r) :
    Leads [.dec] s (s.asking r) := by
  refine leads_dec fun l => (State.moveDec_scanning (s := s.withScript l) hscan).trans ?_
  simp [State.advanceScan, State.issueMatch, State.asking, State.withScript, hcap, hmatch, hx, hr]

/-- MATCHER answers a MATCH of the build (R138). -/
theorem leads_answerMatch {s : State} {r : Role} {a n : Nat} (hp : s.dec.matchPort = some (matchWordOf s.build r a n))
    (hw : (Instr.matchDur r a n).wellFormed s.build = true) :
    Leads [.matcher] s (s.answerMatch r a n (matchTol r a n)) := by
  refine leads_of_runAct fun l => ?_
  rw [runAct_word (s := s.withScript l) (w := .matcher (matchWordOf s.build r a n)) (by simp [State.fetch, hp])
    (decode_matchWordOf hw)]
  exact congrArg _ (State.useAnswer_withScript _ { s with dec := { s.dec with
    matchPort := none, queries := s.dec.queries ++ [.matchDur r a n (matchTol r a n)] } } l)

/-- Two ways to give the agents their moves in one step of `DEC`: only the moves that do something, or rounds in which
`DEC`, CAPTURE and MATCHER each get one. -/
inductive Pace where
  | tight
  | rounds

/-- The moves for a CAPREAD and its answer. -/
def Pace.read : Pace → List Act
  | .tight => [.dec, .capture]
  | .rounds => [.dec, .capture, .matcher]

/-- The moves for a MATCH and its answer. -/
def Pace.ask : Pace → List Act
  | .tight => [.dec, .matcher]
  | .rounds => [.dec, .capture, .matcher]

/-- The next entry is read. -/
theorem leads_read (p : Pace) {s : State} (hb : s.Readable) (hscan : s.dec.state.scanning = true) (hf : s.dec.Fresh)
    (hi : s.dec.idx.toNat < s.capture.count) :
    Leads p.read s ((s.asked [.capRead s.dec.idx s.nextEntry]).holding s.nextEntry false) := by
  have ht := Capture.touched_stable hb.stable s.dec.idx
  have hread := (leads_issueRead hscan hf).trans (leads_answerRead (s := s.issueRead) rfl hi ht)
  obtain ⟨hcap, hmatch, -, hzero⟩ := hf
  have heq : s.issueRead.answerRead s.dec.idx s.nextEntry
      = (s.asked [.capRead s.dec.idx s.nextEntry]).holding s.nextEntry false := by
    simp [State.issueRead, State.answerRead, State.asked, State.holding, ht, hcap, hzero]
  rw [← heq]
  cases p with
  | tight => exact hread
  | rounds => exact hread.trans (leads_matcher_idle hmatch)

/-- The entry read is matched, and `DEC` goes on with the answer. -/
theorem leads_ask (p : Pace) {s : State} {role : Role} {x n : Nat} (hb : s.Readable)
    (hscan : s.dec.state.scanning = true) (hcap : s.dec.capPort = none) (hmatch : s.dec.matchPort = none)
    (hx : s.dec.entry = some x) (hfit : s.build.durFits x = true)
    (hr : s.dec.matchReq Config.bitMarkMode x = some ⟨role, x, n⟩) :
    Leads p.ask s ((s.asked [.matchDur role x n (matchTol role x n)]).useAnswer (matchTol role x n)) := by
  have hissue := leads_issueMatch hscan hcap hmatch hx hr
  have hanswer := leads_answerMatch (s := s.asking ⟨role, x, n⟩) rfl (Decoder.matchReq_wellFormed hb.legal hfit hr)
  have heq : (s.asking ⟨role, x, n⟩).answerMatch role x n (matchTol role x n)
      = (s.asked [.matchDur role x n (matchTol role x n)]).useAnswer (matchTol role x n) := by
    simp [State.answerMatch, State.asking, State.asked, hmatch]
  rw [heq] at hanswer
  cases p with
  | tight => exact hissue.trans hanswer
  | rounds => exact hissue.trans ((leads_capture_idle (s := s.asking ⟨role, x, n⟩) hcap).trans hanswer)

theorem State.asked_holding_asked (l₁ l₂ : List Query) (x : Nat) (z : Bool) (s : State) :
    ((s.asked l₁).holding x z).asked l₂ = (s.asked (l₁ ++ l₂)).holding x z := by
  simp [State.asked, State.holding]

/-- The next entry is read and matched, and `DEC` goes on with the answer, the entry in its hand. -/
theorem leads_read_ask (p : Pace) {s : State} (hb : s.Readable) (hscan : s.dec.state.scanning = true)
    (hf : s.dec.Fresh) (hi : s.dec.idx.toNat < s.capture.count) {role : Role} {n : Nat}
    (hr : s.dec.matchReq Config.bitMarkMode s.nextEntry = some ⟨role, s.nextEntry, n⟩) :
    Leads (p.read ++ p.ask) s
      (((s.asked [.capRead s.dec.idx s.nextEntry, .matchDur role s.nextEntry n (matchTol role s.nextEntry n)]).holding
        s.nextEntry false).useAnswer (matchTol role s.nextEntry n)) := by
  have hread := leads_read p hb hscan hf hi
  obtain ⟨hcap, hmatch, -, hzero⟩ := hf
  have hask := leads_ask p (s := (s.asked [.capRead s.dec.idx s.nextEntry]).holding s.nextEntry false)
    ⟨hb.legal, hb.fits, hb.stable⟩ hscan hcap hmatch rfl (hb.fits _) (by rw [← hr, State.holding, ← hzero]; rfl)
  rw [State.asked_holding_asked] at hask
  exact hread.trans hask

/-! The steps of `DEC` that read an entry: each ends in the model's own operation, with the entry forgotten. -/

/-- The end of a header step (R104). -/
def State.endHeader (ok : Bool) (s : State) : State := if ok then s.headerOk else s.raiseNoMatch .header

/-- The end of a bit mark step (R106). -/
def State.endMark (ok : Bool) (s : State) : State := if ok then s.markOk else s.raiseNoMatch (.bit s.dec.i)

/-- The end of a bit space step: a bit was found, or none (R107, R108). -/
def State.endSpace (bit : Option Bool) (s : State) : State :=
  match bit with
  | some b => s.takeBit b
  | none => s.raiseNoMatch (.bit s.dec.i)

theorem State.useAnswer_holding_hdr {s : State} (h : s.dec.state = .hdr) (x : Nat) (z ok : Bool) :
    (s.holding x z).useAnswer ok = s.endHeader ok := by
  cases ok <;> simp [State.useAnswer, State.holding, h] <;> rfl

theorem State.useAnswer_holding_bitm {s : State} (h : s.dec.state = .bitm) (x : Nat) (z ok : Bool) :
    (s.holding x z).useAnswer ok = s.endMark ok := by
  cases ok <;> simp [State.useAnswer, State.holding, h] <;> rfl

theorem State.useAnswer_holding_bits_yes {s : State} (h : s.dec.state = .bits) (x : Nat) (z : Bool) :
    (s.holding x z).useAnswer true = s.endSpace (some !z) := by
  simp [State.useAnswer, State.holding, h]; rfl

theorem State.useAnswer_holding_bits_no {s : State} (h : s.dec.state = .bits) (x : Nat) (z : Bool) :
    (s.holding x z).useAnswer false = if z then s.endSpace none else s.holding x true := by
  cases z <;> simp [State.useAnswer, State.holding, h]; rfl

/-- One header segment (R104). -/
theorem leads_header (p : Pace) {s : State} (hb : s.Readable) (hs : s.dec.state = .hdr) (hf : s.dec.Fresh)
    (hi : s.dec.idx.toNat < s.capture.count) {role : Role} {n : Nat} (hrole : headerRole s.dec.segment = role)
    (hn : headerNominal s.dec.segment = n) :
    Leads (p.read ++ p.ask) s
      ((s.asked [.capRead s.dec.idx s.nextEntry, .matchDur role s.nextEntry n (matchTol role s.nextEntry n)]).endHeader
        (matchTol role s.nextEntry n)) := by
  have hr : s.dec.matchReq Config.bitMarkMode s.nextEntry = some ⟨role, s.nextEntry, n⟩ := by
    simp [Decoder.matchReq, hs, hrole, hn]
  have hstep := leads_read_ask p hb (by rw [hs]; rfl) hf hi hr
  rwa [State.useAnswer_holding_hdr (s := s.asked _) hs] at hstep

/-- The queries of a bit mark step about the entry `m` at index `i`, answered `ok` (R106). -/
def markQueries (mode : BitMarkMode) (i : CapIdx) (m : Nat) (ok : Bool) : List Query :=
  .capRead i m ::
    match mode with
    | .mark => [.matchDur .mark m 600 ok]
    | .spaceLegacy => [.matchDur .space m 600 ok]
    | .skip => []

/-- In mode SKIP the mark is accepted without a MATCH (R106). -/
theorem leads_skip (p : Pace) {s : State} {x : Nat} (hs : s.dec.state = .bitm) (hcap : s.dec.capPort = none)
    (hmatch : s.dec.matchPort = none) (hx : s.dec.entry = some x) (hmode : Config.bitMarkMode = .skip) :
    Leads p.ask s s.markOk := by
  have hdec : Leads [.dec] s s.markOk := by
    refine leads_dec fun l => (State.moveDec_scanning (s := s.withScript l) (by simp [hs, DecState.scanning])).trans ?_
    simp [State.advanceScan, State.issueMatch, Decoder.matchReq, markQuery, hs, hcap, hmatch, hx, hmode]; rfl
  have hmatcher := leads_matcher_idle (s := s.markOk) hmatch
  cases p with
  | tight => exact hdec.trans hmatcher
  | rounds => exact hdec.trans ((leads_capture_idle (s := s.markOk) hcap).trans hmatcher)

/-- One bit mark (R106). -/
theorem leads_mark (p : Pace) {s : State} (hb : s.Readable) (hs : s.dec.state = .bitm) (hf : s.dec.Fresh)
    (hi : s.dec.idx.toNat < s.capture.count) :
    Leads (p.read ++ p.ask) s
      (let ok := markOkRef matchTol Config.bitMarkMode s.nextEntry
       (s.asked (markQueries Config.bitMarkMode s.dec.idx s.nextEntry ok)).endMark ok) := by
  have hscan : s.dec.state.scanning = true := by rw [hs]; rfl
  have hask : ∀ role, markQuery Config.bitMarkMode s.nextEntry = some ⟨role, s.nextEntry, 600⟩ →
      Leads (p.read ++ p.ask) s ((s.asked [.capRead s.dec.idx s.nextEntry,
        .matchDur role s.nextEntry 600 (matchTol role s.nextEntry 600)]).endMark (matchTol role s.nextEntry 600)) := by
    intro role hr
    have hstep := leads_read_ask p hb hscan hf hi (by simpa [Decoder.matchReq, hs] using hr)
    rwa [State.useAnswer_holding_bitm (s := s.asked _) hs] at hstep
  cases hmode : Config.bitMarkMode with
  | mark => exact hask .mark (by rw [hmode]; rfl)
  | spaceLegacy => exact hask .space (by rw [hmode]; rfl)
  | skip =>
    exact (leads_read p hb hscan hf hi).trans
      (leads_skip p (s := (s.asked [.capRead s.dec.idx s.nextEntry]).holding s.nextEntry false) hs hf.1 hf.2.1 rfl
        hmode)

/-- The queries of a bit space step about the entry `x` at index `i`: the zero-space only after a no (R107). -/
def spaceQueries (i : CapIdx) (x : Nat) : List Query :=
  .capRead i x ::
    if matchTol .space x 1690 = true then [.matchDur .space x 1690 true]
    else [.matchDur .space x 1690 false, .matchDur .space x 600 (matchTol .space x 600)]

/-- One bit space (R107, R108). -/
theorem leads_space (p : Pace) {s : State} (hb : s.Readable) (hs : s.dec.state = .bits) (hf : s.dec.Fresh)
    (hi : s.dec.idx.toNat < s.capture.count) :
    Leads (p.read ++ p.ask ++ if matchTol .space s.nextEntry 1690 = true then [] else p.ask) s
      ((s.asked (spaceQueries s.dec.idx s.nextEntry)).endSpace (spaceBitRef matchTol s.nextEntry)) := by
  have hscan : s.dec.state.scanning = true := by rw [hs]; rfl
  have hone := leads_read_ask p hb hscan hf hi (role := .space) (n := 1690) (by
    obtain ⟨-, -, -, hzero⟩ := hf
    simp [Decoder.matchReq, hs, spaceQuery, hzero, Config.timing])
  cases h1 : matchTol .space s.nextEntry 1690 with
  | true =>
    rw [h1, State.useAnswer_holding_bits_yes (s := s.asked _) hs] at hone
    simpa [spaceQueries, spaceBitRef, h1] using hone
  | false =>
    rw [h1, State.useAnswer_holding_bits_no (s := s.asked _) hs] at hone
    have hzero := leads_ask p (role := .space) (n := 600)
      (s := State.holding s.nextEntry true
        (s.asked [.capRead s.dec.idx s.nextEntry, .matchDur .space s.nextEntry 1690 false]))
      ⟨hb.legal, hb.fits, hb.stable⟩ hscan hf.1 hf.2.1 rfl (hb.fits _) (by
        simp [Decoder.matchReq, State.holding, State.asked, hs, spaceQuery, Config.timing])
    rw [State.asked_holding_asked] at hzero
    cases h0 : matchTol .space s.nextEntry 600 with
    | true =>
      rw [h0, State.useAnswer_holding_bits_yes (s := s.asked _) hs] at hzero
      simpa [spaceQueries, spaceBitRef, h1, h0] using hone.trans hzero
    | false =>
      rw [h0, State.useAnswer_holding_bits_no (s := s.asked _) hs] at hzero
      simpa [spaceQueries, spaceBitRef, h1, h0] using hone.trans hzero

/-! What the end of a step leaves, over a stable buffer. -/

theorem Decoder.segment_of_idx {d : Decoder} {k : Nat} (h : d.idx.toNat = 1 + k) :
    d.segment = BitVec.ofNat 8 k := by
  refine BitVec.eq_of_toNat_eq ?_
  simp [Decoder.segment, BitVec.toNat_sub, h]
  omega

/-- `ROLE[k]` (R104). -/
theorem headerRole_ofNat {k : Nat} (hk : k < 4) :
    headerRole (BitVec.ofNat 8 k) = if k % 2 = 0 then .mark else .space := by
  interval_cases k <;> rfl

/-- `HDR[k]` (R104). -/
theorem headerNominal_ofNat {k : Nat} (hk : k < 4) :
    headerNominal (BitVec.ofNat 8 k) = if k = 3 then 4350 else 3050 := by
  interval_cases k <;> rfl

theorem CapIdx.toNat_succ {i : CapIdx} {n : Nat} (h : i.toNat = n) (hn : n < 255) : (i + 1).toNat = n + 1 := by
  simp [BitVec.toNat_add, h]
  omega

theorem State.endHeader_no {l : List Query} {s : State} (h : s.capture.broken = false) :
    (s.asked l).endHeader false = (s.asked l).failed .header :=
  State.raiseNoMatch_eq_failed (s := s.asked l) .header h

theorem State.endMark_no {l : List Query} {s : State} (h : s.capture.broken = false) :
    (s.asked l).endMark false = (s.asked l).failed (.bit s.dec.i) :=
  State.raiseNoMatch_eq_failed (s := s.asked l) (.bit s.dec.i) h

/-- Settles O28: segment `k` makes its two queries, and the answer ends the step. -/
theorem headerSegmentStep : Obligations.HeaderSegmentStep := by
  intro s rest k hk hs hidx hf hsized hpresent hst hscript a role nominal
  have hseg := Decoder.segment_of_idx hidx
  have ha : s.nextEntry = a := congrArg _ hidx
  have hlead := leads_header .tight (State.readable_of_sized hsized hst) hs hf (hidx ▸ hpresent)
    (hseg ▸ headerRole_ofNat hk) (hseg ▸ headerNominal_ofNat hk)
  rw [ha] at hlead
  obtain ⟨hcap, hmatch, -, -⟩ := hf
  cases hok : matchTol role a nominal with
  | true =>
    rw [hok] at hlead
    have hnext : (if s.dec.segment = 3 then DecState.bitm else .hdr) = if k = 3 then .bitm else .hdr := by
      rw [hseg]; interval_cases k <;> rfl
    exact ⟨_, hlead.run hscript, rfl, ⟨hcap, hmatch, rfl, rfl⟩, rfl, rfl,
      State.sameOutsideDecoder_of_eq rfl rfl rfl rfl rfl, State.sameRecord_of_eq rfl, rfl, rfl, rfl,
      (CapIdx.toNat_succ hidx (by omega)).trans (by omega), hnext, rfl⟩
  | false =>
    rw [hok, State.endHeader_no hst] at hlead
    exact ⟨_, hlead.run hscript, rfl, ⟨hcap, hmatch, rfl, rfl⟩, rfl, rfl,
      State.sameOutsideDecoder_of_eq rfl rfl rfl rfl rfl, ⟨rfl, rfl, rfl, rfl⟩, rfl, rfl, rfl, rfl, rfl, rfl⟩

/-- Settles O29: the mark is read and checked as the mode says, and the verdict ends the step. -/
theorem bitMarkStep : Obligations.BitMarkStep := by
  intro s rest hs hf hsized hpresent hst hscript m ok
  have hlead := leads_mark .tight (State.readable_of_sized hsized hst) hs hf hpresent
  obtain ⟨hcap, hmatch, -, -⟩ := hf
  cases hok : ok with
  | true =>
    rw [show markOkRef matchTol Config.bitMarkMode s.nextEntry = true from hok] at hlead
    exact ⟨_, hlead.run hscript, rfl, ⟨hcap, hmatch, rfl, rfl⟩, rfl, rfl,
      State.sameOutsideDecoder_of_eq rfl rfl rfl rfl rfl, State.sameRecord_of_eq rfl, rfl, rfl, rfl, rfl, rfl, rfl⟩
  | false =>
    rw [show markOkRef matchTol Config.bitMarkMode s.nextEntry = false from hok, State.endMark_no hst] at hlead
    exact ⟨_, hlead.run hscript, rfl, ⟨hcap, hmatch, rfl, rfl⟩, rfl, rfl,
      State.sameOutsideDecoder_of_eq rfl rfl rfl rfl rfl, ⟨rfl, rfl, rfl, rfl⟩, rfl, rfl, rfl, rfl, rfl, rfl⟩

/-- A bit shifted in at bit 0, the top bit dropped (R108, R114 (d)). -/
theorem appendBit_toNat (acc : Payload) (b : Bool) : (appendBit acc b).toNat = (2 * acc.toNat + b.toNat) % 2 ^ 112 := by
  have hor := Nat.shiftLeft_add_eq_or_of_lt (i := 1) (b := b.toNat) (by cases b <;> decide) acc.toNat
  rw [appendBit, BitVec.toNat_or, BitVec.toNat_shiftLeft, BitVec.toNat_ofNat, ← Nat.or_mod_two_pow, ← hor,
    Nat.shiftLeft_eq, Nat.mul_comm]

/-- The state in which a DECODE ends in success with the payload `v` (R109). -/
def State.matched (v : Payload) (s : State) : State :=
  { s with dec := { s.dec.consume .idle with acc := v }, res := s.res.after s.tag none v }

/-- The state after a bit before the last one, with the accumulator `v` (R108). -/
def State.nextCell (v : Payload) (s : State) : State :=
  { s with dec := { s.dec.consume .bitm with acc := v, i := s.dec.i + 1 } }

theorem State.takeBit_last {s : State} (b : Bool) (hi : s.dec.i.toNat = 111) (hst : s.capture.broken = false) :
    s.takeBit b = s.matched (appendBit s.dec.acc b) := by
  obtain ⟨-, h⟩ | ⟨hne, -⟩ := s.takeBit_cases b
  · obtain ⟨-, hfin⟩ | ⟨hbroken, -⟩ := State.finish_cases none (appendBit s.dec.acc b)
      { s with dec := { s.dec.consume .idle with acc := appendBit s.dec.acc b } }
    · exact h.trans hfin
    · exact absurd (hst.symm.trans hbroken) (by decide)
  · exact absurd hi hne

theorem State.takeBit_next {s : State} (b : Bool) (hi : s.dec.i.toNat ≠ 111) :
    s.takeBit b = s.nextCell (appendBit s.dec.acc b) := by
  obtain ⟨heq, -⟩ | ⟨-, h⟩ := s.takeBit_cases b
  · exact absurd heq hi
  · exact h

theorem State.endSpace_last {l : List Query} {s : State} (b : Bool) (hi : s.dec.i.toNat = 111)
    (hst : s.capture.broken = false) :
    (s.asked l).endSpace (some b) = (s.asked l).matched (appendBit s.dec.acc b) :=
  State.takeBit_last (s := s.asked l) b hi hst

theorem State.endSpace_next {l : List Query} {s : State} (b : Bool) (hi : s.dec.i.toNat ≠ 111) :
    (s.asked l).endSpace (some b) = (s.asked l).nextCell (appendBit s.dec.acc b) :=
  State.takeBit_next (s := s.asked l) b hi

theorem State.endSpace_none {l : List Query} {s : State} (h : s.capture.broken = false) :
    (s.asked l).endSpace none = (s.asked l).failed (.bit s.dec.i) :=
  State.raiseNoMatch_eq_failed (s := s.asked l) (.bit s.dec.i) h

/-- A bit is found if one of the two tests says yes, and its value is the answer to the first (R107). -/
theorem spaceBitRef_eq_some {m : Role → Nat → Nat → Bool} {d : Nat} {b : Bool} (h : spaceBitRef m d = some b) :
    (m .space d 1690 = true ∨ m .space d 600 = true) ∧ b = m .space d 1690 := by
  unfold spaceBitRef at h
  split at h
  · next h1 => exact ⟨.inl h1, by rw [h1]; exact (Option.some.inj h).symm⟩
  · next h1 =>
    split at h
    · next h0 => exact ⟨.inr h0, by rw [Bool.eq_false_of_not_eq_true h1]; exact (Option.some.inj h).symm⟩
    · cases h

theorem spaceBitRef_eq_none {m : Role → Nat → Nat → Bool} {d : Nat} (h : spaceBitRef m d = none) :
    ¬(m .space d 1690 = true ∨ m .space d 600 = true) := by
  unfold spaceBitRef at h
  split at h
  · cases h
  · split at h
    · cases h
    · simp [*]

/-- Settles O30: the two tests find a bit or none, and the bit or its absence ends the step. -/
theorem bitSpaceStep : Obligations.BitSpaceStep := by
  intro s rest hs hf hsized hpresent hst x one zero hscript
  have hlead := leads_space .tight (State.readable_of_sized hsized hst) hs hf hpresent
  have hrun := hlead.run (rest := rest) (by simpa [Pace.read, Pace.ask] using hscript)
  have hlen : (Pace.read .tight ++ Pace.ask .tight ++ if one = true then [] else Pace.ask .tight).length
      = if one = true then 4 else 6 := by
    split <;> rfl
  rw [hlen] at hrun
  obtain ⟨hcap, hmatch, -, -⟩ := hf
  cases hbit : spaceBitRef matchTol x with
  | some b =>
    obtain ⟨hfound, hb⟩ := spaceBitRef_eq_some hbit
    have hbnat : b.toNat = if one = true then 1 else 0 := by
      rw [show b = one from hb]; cases one <;> rfl
    have hacc := hbnat ▸ appendBit_toNat s.dec.acc b
    rw [hbit] at hrun
    by_cases hi : s.dec.i.toNat = 111
    · rw [State.endSpace_last b hi hst] at hrun
      refine ⟨_, hrun, rfl, ⟨hcap, hmatch, rfl, rfl⟩,
        State.sameOutsideDecoder_of_eq rfl rfl rfl rfl rfl, rfl, rfl, ?_⟩
      rw [if_pos hfound, if_pos hi]
      exact ⟨hacc, rfl, rfl, rfl, rfl, rfl, rfl, rfl, rfl, rfl, rfl⟩
    · rw [State.endSpace_next b hi] at hrun
      refine ⟨_, hrun, rfl, ⟨hcap, hmatch, rfl, rfl⟩,
        State.sameOutsideDecoder_of_eq rfl rfl rfl rfl rfl, rfl, rfl, ?_⟩
      rw [if_pos hfound, if_neg hi]
      exact ⟨hacc, rfl, rfl, rfl, rfl, rfl⟩
  | none =>
    rw [hbit, State.endSpace_none hst] at hrun
    refine ⟨_, hrun, rfl, ⟨hcap, hmatch, rfl, rfl⟩,
      State.sameOutsideDecoder_of_eq rfl rfl rfl rfl rfl, rfl, rfl, ?_⟩
    rw [if_neg (spaceBitRef_eq_none hbit)]
    exact ⟨rfl, rfl, rfl, ⟨rfl, rfl, rfl, rfl⟩, rfl, rfl, rfl⟩

end Sys2Proof.Machine

/-! A whole DECODE: the run of the decoder computes `Decode(CAP_N, CAP)` (R113). -/

namespace Sys2Proof.Machine

open Sys2Proof

/-! The decoder as a function, cell by cell. -/

/-- The accumulator after `k` bit cells: the sum of the bits found so far, the last one with weight 1 (R108). -/
def payloadUpTo (m : Role → Nat → Nat → Bool) (cap : Nat → Nat) (k : Nat) : Nat :=
  ((List.range k).map fun i => if spaceBitRef m (cap (6 + 2 * i)) = some true then 2 ^ (k - 1 - i) else 0).sum

theorem payloadRef_eq (m : Role → Nat → Nat → Bool) (cap : Nat → Nat) :
    payloadRef m cap = payloadUpTo m cap 112 := rfl

theorem payloadUpTo_succ (m : Role → Nat → Nat → Bool) (cap : Nat → Nat) (k : Nat) :
    payloadUpTo m cap (k + 1)
      = 2 * payloadUpTo m cap k + if spaceBitRef m (cap (6 + 2 * k)) = some true then 1 else 0 := by
  have hdouble : ∀ i ∈ List.range k,
      (if spaceBitRef m (cap (6 + 2 * i)) = some true then 2 ^ (k + 1 - 1 - i) else 0)
        = 2 * if spaceBitRef m (cap (6 + 2 * i)) = some true then 2 ^ (k - 1 - i) else 0 := by
    intro i hi
    have hlt := List.mem_range.mp hi
    rw [mul_ite, ← pow_succ', show k - 1 - i + 1 = k + 1 - 1 - i by omega, mul_zero]
  rw [payloadUpTo, List.range_succ, List.map_append, List.sum_append, List.map_congr_left hdouble,
    List.sum_map_mul_left]
  simp [payloadUpTo]

section
variable {m : Role → Nat → Nat → Bool} {mode : BitMarkMode} {tag : Nat} {cap : Nat → Nat}

theorem decodeRef_length {n : Nat} (hn : n ≠ 230) : decodeRef m mode tag n cap = .noMatch .length := by
  simp [decodeRef, hn]

theorem decodeRef_header (h : headerOkRef m cap = false) : decodeRef m mode tag 230 cap = .noMatch .header := by
  simp [decodeRef, h]

/-- The failing cell is the least one that is not sound (R113). -/
theorem decodeRef_cell {k : Nat} (h : headerOkRef m cap = true) (hk : k < 112)
    (hsound : ∀ i < k, cellOkRef m mode cap i = true) (hfail : cellOkRef m mode cap k = false) :
    decodeRef m mode tag 230 cap = .noMatch (.bit (BitVec.ofNat 7 k)) := by
  have hfind : ((List.range 112).find? fun i => !cellOkRef m mode cap i) = some k :=
    List.find?_range_eq_some.mpr ⟨by simp [hfail], by simpa using hk, fun i hi => by simp [hsound i hi]⟩
  simp [decodeRef, h, hfind]

theorem decodeRef_sound (h : headerOkRef m cap = true) (hsound : ∀ i < 112, cellOkRef m mode cap i = true) :
    decodeRef m mode tag 230 cap = .isMatch (BitVec.ofNat 112 (payloadUpTo m cap 112)) 112 tag := by
  have hfind : ((List.range 112).find? fun i => !cellOkRef m mode cap i) = none :=
    List.find?_range_eq_none.mpr fun i hi => by simp [hsound i hi]
  simp [decodeRef, h, hfind, payloadRef_eq]

end

theorem appendBit_ofNat (a : Nat) (b : Bool) :
    appendBit (BitVec.ofNat 112 a) b = BitVec.ofNat 112 (2 * a + b.toNat) := by
  refine BitVec.eq_of_toNat_eq ?_
  rw [appendBit_toNat, BitVec.toNat_ofNat, BitVec.toNat_ofNat]
  omega

/-! Rounds. -/

/-- `n` rounds, in each of which `DEC`, CAPTURE and MATCHER get a move. -/
def rounds (n : Nat) : List Act := (List.replicate n [Act.dec, Act.capture, Act.matcher]).flatten

theorem rounds_add (a b : Nat) : rounds (a + b) = rounds a ++ rounds b := by
  simp only [rounds, List.replicate_add, List.flatten_append]

theorem length_rounds (n : Nat) : (rounds n).length = 3 * n := by
  simp [rounds, Nat.mul_comm]

theorem Leads.rounds_trans {a b : Nat} {s t u : State} (h₁ : Leads (rounds a) s t) (h₂ : Leads (rounds b) t u) :
    Leads (rounds (a + b)) s u := by
  rw [rounds_add]; exact h₁.trans h₂

/-- An idle `DEC` does nothing, however many rounds it gets (R173). -/
theorem leads_rounds_idle {s : State} (h : s.dec.state = .idle) (hf : s.dec.Fresh) (n : Nat) :
    Leads (rounds n) s s := by
  induction n with
  | zero => exact .nil s
  | succ n ih =>
    have hround : Leads (rounds 1) s s :=
      (leads_dec_idle h).trans ((leads_capture_idle hf.1).trans (leads_matcher_idle hf.2.1))
    rw [Nat.add_comm]
    exact hround.rounds_trans ih

/-! The end of a DECODE that was accepted in `s₀`. -/

/-- In `t` the DECODE accepted in `s₀` has ended with the return value `v` (R141, R156). -/
structure State.Ended (s₀ t : State) (v : Verdict) : Prop where
  idle : t.dec.state = .idle
  fresh : t.dec.Fresh
  verdict : t.decodeReturn = some v
  valid : t.res.status = .stMatch → t.res.valid = true
  record : t.res.status ≠ .stMatch → s₀.SameRecord t
  hostPort : t.hostPort = s₀.hostPort

/-- The DECODE accepted in `s₀` is in progress in `s`, between two steps of `DEC`: all else is as it was. -/
structure State.Ongoing (s₀ s : State) : Prop where
  build : s.build = s₀.build
  capture : s.capture = s₀.capture
  res : s.res = s₀.res
  hostPort : s.hostPort = s₀.hostPort
  fresh : s.dec.Fresh

theorem State.Ongoing.asked {s₀ s : State} (h : s₀.Ongoing s) (l : List Query) : s₀.Ongoing (s.asked l) :=
  ⟨h.build, h.capture, h.res, h.hostPort, h.fresh⟩

theorem State.Ongoing.failed {s₀ s : State} (h : s₀.Ongoing s) (r : NoMatch) :
    s₀.Ended (s.failed r) (.noMatch r) where
  idle := rfl
  fresh := ⟨h.fresh.1, h.fresh.2.1, rfl, rfl⟩
  verdict := by cases r <;> rfl
  valid := by cases r <;> exact fun hm => nomatch hm
  record := fun _ => by rw [State.SameRecord, ← h.res]; exact ⟨rfl, rfl, rfl, rfl⟩
  hostPort := h.hostPort

theorem State.Ongoing.matched {s₀ s : State} (h : s₀.Ongoing s) (v : Payload) :
    s₀.Ended (s.matched v) (.isMatch v 112 s₀.tag) where
  idle := rfl
  fresh := ⟨h.fresh.1, h.fresh.2.1, rfl, rfl⟩
  verdict := by rw [State.tag, ← h.build]; rfl
  valid := fun _ => rfl
  record := fun hne => absurd rfl hne
  hostPort := h.hostPort

/-! A step that does not end the DECODE lets it go on. -/

theorem State.Ongoing.headerOk {s₀ s : State} (h : s₀.Ongoing s) : s₀.Ongoing s.headerOk :=
  ⟨h.build, h.capture, h.res, h.hostPort, h.fresh.1, h.fresh.2.1, rfl, rfl⟩

theorem State.Ongoing.markOk {s₀ s : State} (h : s₀.Ongoing s) : s₀.Ongoing s.markOk :=
  ⟨h.build, h.capture, h.res, h.hostPort, h.fresh.1, h.fresh.2.1, rfl, rfl⟩

theorem State.Ongoing.nextCell {s₀ s : State} (h : s₀.Ongoing s) (v : Payload) : s₀.Ongoing (s.nextCell v) :=
  ⟨h.build, h.capture, h.res, h.hostPort, h.fresh.1, h.fresh.2.1, rfl, rfl⟩

/-- What the function says of the buffer that `s` holds (R113). -/
abbrev State.verdict (s : State) : Verdict :=
  decodeRef matchTol Config.bitMarkMode s.tag s.capture.count s.capture.cells.read

/-- From `s`, `n` rounds bring the DECODE accepted in `s₀` to its end, with the function's value. -/
def State.Decodes (s₀ : State) (n : Nat) (s : State) : Prop :=
  ∃ t : State, Leads (rounds n) s t ∧ s₀.Ended t s₀.verdict

theorem State.Decodes.of_leads {s₀ s t : State} {a n : Nat} (h : s₀.Decodes n t) (hl : Leads (rounds a) s t) :
    s₀.Decodes (a + n) s := by
  obtain ⟨u, hu, hend⟩ := h
  exact ⟨u, hl.rounds_trans hu, hend⟩

theorem State.Decodes.mono {s₀ s : State} {n n' : Nat} (h : s₀.Decodes n s) (hn : n ≤ n') :
    s₀.Decodes n' s := by
  obtain ⟨t, ht, hend⟩ := h
  rw [← Nat.add_sub_cancel' hn]
  exact ⟨t, ht.rounds_trans (leads_rounds_idle hend.idle hend.fresh _), hend⟩

/-! The bit loop and the header, over a buffer of 230 entries. -/

/-- The buffer can be decoded and passes the length check (R102). -/
structure State.Framed (s₀ : State) : Prop where
  readable : s₀.Readable
  count : s₀.capture.count = 230

theorem State.Framed.readable_of {s₀ s : State} (hb : s₀.Framed) (h : s₀.Ongoing s) : s.Readable where
  legal := by rw [h.build]; exact hb.readable.legal
  fits := by rw [h.build, h.capture]; exact hb.readable.fits
  stable := by rw [h.capture]; exact hb.readable.stable

theorem State.Framed.present {s₀ s : State} (hb : s₀.Framed) (h : s₀.Ongoing s) {k : Nat}
    (hidx : s.dec.idx.toNat = k) (hk : k < 230) : s.dec.idx.toNat < s.capture.count := by
  rw [h.capture, hb.count, hidx]; exact hk

theorem State.Ongoing.nextEntry {s₀ s : State} (h : s₀.Ongoing s) {k : Nat} (hidx : s.dec.idx.toNat = k) :
    s.nextEntry = s₀.capture.cells.read k := by
  rw [State.nextEntry, h.capture, hidx]

/-- The first `k` bit cells are sound and their bits are in the accumulator; cell `k` is next (R30, R108). -/
structure State.AtCell (s₀ s : State) (k : Nat) : Prop where
  ongoing : s₀.Ongoing s
  cell : s.dec.i = BitVec.ofNat 7 k
  header : headerOkRef matchTol s₀.capture.cells.read = true
  sound : ∀ i < k, cellOkRef matchTol Config.bitMarkMode s₀.capture.cells.read i = true
  acc : s.dec.acc = BitVec.ofNat 112 (payloadUpTo matchTol s₀.capture.cells.read k)

/-- A cell that is not sound ends the DECODE with the function's value. -/
theorem State.AtCell.decodes_failed {s₀ s : State} {k n : Nat} (hb : s₀.Framed) (hk : k < 112) (h : s₀.AtCell s k)
    (hfail : cellOkRef matchTol Config.bitMarkMode s₀.capture.cells.read k = false) {l : List Query}
    (hl : Leads (rounds n) s ((s.asked l).failed (.bit s.dec.i))) : s₀.Decodes n s := by
  refine ⟨_, hl, ?_⟩
  rw [State.verdict, hb.count, decodeRef_cell h.header hk h.sound hfail, ← h.cell]
  exact (h.ongoing.asked l).failed _

/-- A sound cell 111 ends the DECODE with the function's value. -/
theorem State.AtCell.decodes_matched {s₀ s : State} {n : Nat} (hb : s₀.Framed) (h : s₀.AtCell s 111)
    (hok : cellOkRef matchTol Config.bitMarkMode s₀.capture.cells.read 111 = true) {l : List Query}
    (hl : Leads (rounds n) s
      ((s.asked l).matched (BitVec.ofNat 112 (payloadUpTo matchTol s₀.capture.cells.read 112)))) :
    s₀.Decodes n s := by
  refine ⟨_, hl, ?_⟩
  rw [State.verdict, hb.count, decodeRef_sound h.header (Nat.forall_lt_succ_right.mpr ⟨h.sound, hok⟩)]
  exact (h.ongoing.asked l).matched _

theorem State.AtCell.appendBit_acc {s₀ s : State} {k : Nat} (h : s₀.AtCell s k) {b : Bool}
    (hbit : spaceBitRef matchTol (s₀.capture.cells.read (6 + 2 * k)) = some b) :
    appendBit s.dec.acc b = BitVec.ofNat 112 (payloadUpTo matchTol s₀.capture.cells.read (k + 1)) := by
  rw [h.acc, appendBit_ofNat, payloadUpTo_succ, hbit]
  cases b <;> rfl

/-- The mark of cell `k`: accepted, it leads on to the space; else it ends the DECODE (R106). -/
theorem State.AtCell.decodes_mark {s₀ s : State} {k n : Nat} (hb : s₀.Framed) (hk : k < 112) (h : s₀.AtCell s k)
    (hs : s.dec.state = .bitm) (hidx : s.dec.idx.toNat = 5 + 2 * k)
    (hnext : ∀ t : State, s₀.AtCell t k → t.dec.state = .bits → t.dec.idx.toNat = 6 + 2 * k →
      markOkRef matchTol Config.bitMarkMode (s₀.capture.cells.read (5 + 2 * k)) = true → s₀.Decodes n t) :
    s₀.Decodes (2 + n) s := by
  have hread := hb.readable_of h.ongoing
  have hlead : Leads (rounds 2) s _ :=
    leads_mark .rounds hread hs h.ongoing.fresh (hb.present h.ongoing hidx (by omega))
  rw [h.ongoing.nextEntry hidx] at hlead
  cases hok : markOkRef matchTol Config.bitMarkMode (s₀.capture.cells.read (5 + 2 * k)) with
  | true =>
    rw [hok] at hlead
    exact (hnext _ ⟨(h.ongoing.asked _).markOk, h.cell, h.header, h.sound, h.acc⟩ rfl
      ((CapIdx.toNat_succ hidx (by omega)).trans (by omega)) hok).of_leads hlead
  | false =>
    rw [hok, State.endMark_no hread.stable] at hlead
    exact (h.decodes_failed hb hk (by simp [cellOkRef, hok]) hlead).mono (Nat.le_add_right 2 n)

/-- The space of cell `k`: a bit leads on to the next cell, or to success after cell 111; else the DECODE ends
(R107 to R109). -/
theorem State.AtCell.decodes_space {s₀ s : State} {k n : Nat} (hb : s₀.Framed) (hk : k < 112) (h : s₀.AtCell s k)
    (hs : s.dec.state = .bits) (hidx : s.dec.idx.toNat = 6 + 2 * k)
    (hmark : markOkRef matchTol Config.bitMarkMode (s₀.capture.cells.read (5 + 2 * k)) = true)
    (hnext : k ≠ 111 → ∀ t : State, s₀.AtCell t (k + 1) → t.dec.state = .bitm →
      t.dec.idx.toNat = 5 + 2 * (k + 1) → s₀.Decodes n t) :
    s₀.Decodes (3 + n) s := by
  have hread := hb.readable_of h.ongoing
  obtain ⟨a, ha, hlead⟩ : ∃ a ≤ 3, Leads (rounds a) s
      ((s.asked (spaceQueries s.dec.idx s.nextEntry)).endSpace (spaceBitRef matchTol s.nextEntry)) := by
    have hlead := leads_space .rounds hread hs h.ongoing.fresh (hb.present h.ongoing hidx (by omega))
    split at hlead
    · exact ⟨2, by omega, hlead⟩
    · exact ⟨3, le_rfl, hlead⟩
  suffices s₀.Decodes (a + n) s from this.mono (by omega)
  rw [h.ongoing.nextEntry hidx] at hlead
  cases hbit : spaceBitRef matchTol (s₀.capture.cells.read (6 + 2 * k)) with
  | none =>
    rw [hbit, State.endSpace_none hread.stable] at hlead
    exact (h.decodes_failed hb hk (by simp [cellOkRef, hbit]) hlead).mono (Nat.le_add_right a n)
  | some b =>
    rw [hbit] at hlead
    have hok : cellOkRef matchTol Config.bitMarkMode s₀.capture.cells.read k = true := by
      simp [cellOkRef, hmark, hbit]
    have hi : s.dec.i.toNat = k := by rw [h.cell, BitVec.toNat_ofNat, Nat.mod_eq_of_lt (by omega)]
    by_cases hlast : k = 111
    · rw [State.endSpace_last b (hi.trans hlast) hread.stable, h.appendBit_acc hbit] at hlead
      subst hlast
      exact (h.decodes_matched hb hok hlead).mono (Nat.le_add_right a n)
    · rw [State.endSpace_next b (hi ▸ hlast), h.appendBit_acc hbit] at hlead
      have hcell : s.dec.i + 1 = BitVec.ofNat 7 (k + 1) := by rw [h.cell, BitVec.ofNat_add]; rfl
      exact (hnext hlast _ ⟨(h.ongoing.asked _).nextCell _, hcell, h.header,
        Nat.forall_lt_succ_right.mpr ⟨h.sound, hok⟩, rfl⟩ rfl
        ((CapIdx.toNat_succ hidx (by omega)).trans (by omega))).of_leads hlead

/-- The bit loop, from cell `k` on: `5` rounds for each of the remaining cells. -/
theorem State.AtCell.decodes {s₀ s : State} (hb : s₀.Framed) (j k : Nat) (hjk : k + j = 111) (h : s₀.AtCell s k)
    (hs : s.dec.state = .bitm) (hidx : s.dec.idx.toNat = 5 + 2 * k) : s₀.Decodes (5 * (j + 1)) s := by
  induction j generalizing s k with
  | zero =>
    exact State.AtCell.decodes_mark (n := 3 + 0) hb (by omega) h hs hidx fun t ht hs hidx hmark =>
      State.AtCell.decodes_space hb (by omega) ht hs hidx hmark fun hne => absurd hjk hne
  | succ j ih =>
    refine State.Decodes.mono (n := 2 + (3 + 5 * (j + 1))) ?_ (by omega)
    exact State.AtCell.decodes_mark hb (by omega) h hs hidx fun t ht hs hidx hmark =>
      State.AtCell.decodes_space hb (by omega) ht hs hidx hmark fun _ u hu hs hidx => ih (k + 1) (by omega) hu hs hidx

/-- Check `k` of the header (R104, R113). -/
def segmentOkRef (m : Role → Nat → Nat → Bool) (cap : Nat → Nat) (k : Nat) : Bool :=
  m (if k % 2 = 0 then .mark else .space) (cap (1 + k)) (if k = 3 then 4350 else 3050)

theorem headerOkRef_iff {m : Role → Nat → Nat → Bool} {cap : Nat → Nat} :
    headerOkRef m cap = true ↔ ∀ k < 4, segmentOkRef m cap k = true := by
  constructor
  · intro h k hk
    simp only [headerOkRef, Bool.and_eq_true] at h
    obtain ⟨⟨⟨h0, h1⟩, h2⟩, h3⟩ := h
    interval_cases k <;> assumption
  · intro h
    simp only [headerOkRef, Bool.and_eq_true]
    exact ⟨⟨⟨h 0 (by decide), h 1 (by decide)⟩, h 2 (by decide)⟩, h 3 (by decide)⟩

/-- The first `k` header checks said yes; segment `k` is next, or the bit loop (R30, R104). -/
structure State.AtSegment (s₀ s : State) (k : Nat) : Prop where
  ongoing : s₀.Ongoing s
  state : s.dec.state = if k = 4 then .bitm else .hdr
  idx : s.dec.idx.toNat = 1 + k
  cell : s.dec.i = 0
  acc : s.dec.acc = 0
  sound : ∀ i < k, segmentOkRef matchTol s₀.capture.cells.read i = true

theorem State.AtSegment.atCell {s₀ s : State} (h : s₀.AtSegment s 4) : s₀.AtCell s 0 :=
  ⟨h.ongoing, h.cell, headerOkRef_iff.mpr h.sound, fun i hi => absurd hi (Nat.not_lt_zero i), h.acc⟩

/-- Segment `k`: a yes leads on, a no ends the DECODE (R104). -/
theorem State.AtSegment.decodes_segment {s₀ s : State} {k n : Nat} (hb : s₀.Framed) (hk : k < 4)
    (h : s₀.AtSegment s k) (hnext : ∀ t : State, s₀.AtSegment t (k + 1) → s₀.Decodes n t) :
    s₀.Decodes (2 + n) s := by
  have hread := hb.readable_of h.ongoing
  have hs : s.dec.state = .hdr := by rw [h.state, if_neg (by omega)]
  have hseg := Decoder.segment_of_idx h.idx
  have hlead : Leads (rounds 2) s _ := leads_header .rounds hread hs h.ongoing.fresh
    (hb.present h.ongoing h.idx (by omega)) (hseg ▸ headerRole_ofNat hk) (hseg ▸ headerNominal_ofNat hk)
  rw [h.ongoing.nextEntry h.idx] at hlead
  change Leads _ _ (State.endHeader (segmentOkRef matchTol s₀.capture.cells.read k) _) at hlead
  cases hok : segmentOkRef matchTol s₀.capture.cells.read k with
  | true =>
    rw [hok] at hlead
    have hstate : (if s.dec.segment = 3 then DecState.bitm else .hdr) = if k + 1 = 4 then .bitm else .hdr := by
      rw [hseg]; interval_cases k <;> rfl
    exact (hnext _ ⟨(h.ongoing.asked _).headerOk, hstate, (CapIdx.toNat_succ h.idx (by omega)).trans (by omega),
      h.cell, h.acc, Nat.forall_lt_succ_right.mpr ⟨h.sound, hok⟩⟩).of_leads hlead
  | false =>
    rw [hok, State.endHeader_no hread.stable] at hlead
    have hheader : headerOkRef matchTol s₀.capture.cells.read = false :=
      Bool.eq_false_iff.mpr fun hall => by simp [headerOkRef_iff.mp hall k hk] at hok
    refine State.Decodes.mono ⟨_, hlead, ?_⟩ (Nat.le_add_right 2 n)
    rw [State.verdict, hb.count, decodeRef_header hheader]
    exact (h.ongoing.asked _).failed _

/-- The header, from segment `k` on: two rounds for each of the remaining segments, then the bit loop. -/
theorem State.AtSegment.decodes {s₀ s : State} (hb : s₀.Framed) (j k : Nat) (hjk : k + j = 4)
    (h : s₀.AtSegment s k) : s₀.Decodes (2 * j + 560) s := by
  induction j generalizing s k with
  | zero =>
    obtain rfl : k = 4 := hjk
    exact State.Decodes.mono (h.atCell.decodes hb 111 0 rfl h.state h.idx) (by omega)
  | succ j ih =>
    refine State.Decodes.mono (n := 2 + (2 * j + 560)) ?_ (by omega)
    exact h.decodes_segment hb (by omega) fun t ht => ih (k + 1) (by omega) ht

/-- From the length check on, a DECODE ends in 569 rounds with the function's value. -/
theorem State.decodes_of_accepted {s : State} (hb : s.Readable) (hs : s.dec.state = .len) (hf : s.dec.Fresh) :
    s.Decodes 569 s := by
  have honce : ∀ t, s.checkLength = t → t.dec.capPort = none → t.dec.matchPort = none →
      Leads (rounds 1) s t := by
    rintro t rfl hcap hmatch
    exact (leads_checkLength hs).trans ((leads_capture_idle hcap).trans (leads_matcher_idle hmatch))
  by_cases hn : s.capture.count = 230
  · have hlead := honce _ (State.checkLength_passes hb.stable hn) hf.1 hf.2.1
    refine State.Decodes.of_leads (a := 1) (n := 568) ?_ hlead
    exact State.AtSegment.decodes ⟨hb, hn⟩ 4 0
      rfl ⟨⟨rfl, rfl, rfl, rfl, hf.1, hf.2.1, rfl, rfl⟩, rfl, rfl, rfl, rfl, fun _ hi => absurd hi (Nat.not_lt_zero _)⟩
  · have hlead := honce _ (State.checkLength_fails hb.stable hn) hf.1 hf.2.1
    refine State.Decodes.mono ⟨_, hlead, ?_⟩ (by decide)
    rw [State.verdict, decodeRef_length hn]
    exact State.Ongoing.failed ⟨rfl, rfl, rfl, rfl, hf⟩ .length

/-! The whole run. -/

/-- An idle `DEC` accepts a pending DECODE (R101). -/
theorem leads_acceptDecode {s : State} (hs : s.dec.state = .idle) (hp : s.hostPort = some decodeWordH) :
    Leads [.host] s s.acceptDecode := by
  refine leads_of_runAct fun l => ?_
  rw [runAct_word (w := .host decodeWordH) (i := .decode) (by simp [State.fetch, hp]) rfl]
  simp [exec, execDecode, State.decBusy, hs]; rfl

/-- The script of a DECODE brings it to its end with the function's value. -/
theorem run_decode {s : State} (hsized : s.Sized) (hs : s.dec.state = .idle) (hf : s.dec.Fresh)
    (hp : s.hostPort = some decodeWordH) (hscript : s.script = decodeScript) :
    ∃ t : State, Host.Core.run Sys2Proof.core 1708 s = .next (t.withScript [])
      ∧ s.acceptDecode.Ended t s.verdict := by
  have hread := State.readable_of_sized (s := s.acceptDecode) hsized (Capture.settle_broken _)
  obtain ⟨t, hlead, hend⟩ := State.decodes_of_accepted hread rfl hf
  have hrun := ((leads_acceptDecode hs hp).trans hlead).run (rest := []) (by rw [hscript, List.append_nil]; rfl)
  rw [List.length_append, length_rounds] at hrun
  exact ⟨t, hrun, hend⟩

/-- Settles O39: the script brings the DECODE to its end, where the return value is the function's. -/
theorem decodeRunComputesItsFunction : Obligations.DecodeRunComputesItsFunction := by
  intro s hsized hs hf hp hscript
  obtain ⟨t, hrun, hend⟩ := run_decode hsized hs hf hp hscript
  exact ⟨_, hrun, hend.verdict, hend.valid, hend.record, hend.idle, hend.hostPort, rfl⟩

end Sys2Proof.Machine

/-! The round trip: the frame of a payload decodes to that payload (R115). -/

namespace Sys2Proof.Machine

open Sys2Proof

/-- The buffer holds the frame of `v`, 112 bits wide, behind whatever is at index 0 (R67, R115). -/
structure HoldsFrame (v : Payload) (cap : Nat → Nat) : Prop where
  hdrMark1 : cap 1 = 3050
  hdrSpace1 : cap 2 = 3050
  hdrMark2 : cap 3 = 3050
  hdrSpace2 : cap 4 = 4350
  mark : ∀ i < 112, cap (5 + 2 * i) = 600
  space : ∀ i < 112, cap (6 + 2 * i) = if v.getLsbD (111 - i) then 1690 else 600

theorem HoldsFrame.congr {v : Payload} {cap cap' : Nat → Nat} (h : HoldsFrame v cap)
    (heq : ∀ i < 230, cap' i = cap i) : HoldsFrame v cap' where
  hdrMark1 := (heq 1 (by decide)).trans h.hdrMark1
  hdrSpace1 := (heq 2 (by decide)).trans h.hdrSpace1
  hdrMark2 := (heq 3 (by decide)).trans h.hdrMark2
  hdrSpace2 := (heq 4 (by decide)).trans h.hdrSpace2
  mark := fun i hi => (heq _ (by omega)).trans (h.mark i hi)
  space := fun i hi => (heq _ (by omega)).trans (h.space i hi)

section
variable {m : Role → Nat → Nat → Bool} {mode : BitMarkMode} {tag : Nat} {v : Payload} {cap : Nat → Nat}

theorem HoldsFrame.headerOkRef (hm : MP1 m) (h : HoldsFrame v cap) : headerOkRef m cap = true := by
  simp [Machine.headerOkRef, h.hdrMark1, h.hdrSpace1, h.hdrMark2, h.hdrSpace2, hm .mark 3050, hm .space 3050,
    hm .space 4350]

theorem markOkRef_bitMark (hm : MP1 m) : markOkRef m mode 600 = true := by
  cases mode <;> simp [markOkRef, hm .mark 600, hm .space 600]

/-- A sent bit is read back: MP3 keeps the zero-space from being a one (R115, R139). -/
theorem spaceBitRef_bitSpace (h1 : MP1 m) (h3 : MP3 m) (b : Bool) :
    spaceBitRef m (if b then 1690 else 600) = some b := by
  cases b
  · have hone : m .space 600 1690 = false := h3
    simp [spaceBitRef, hone, h1 .space 600]
  · simp [spaceBitRef, h1 .space 1690]

theorem HoldsFrame.spaceBitRef (h1 : MP1 m) (h3 : MP3 m) (h : HoldsFrame v cap) {i : Nat} (hi : i < 112) :
    spaceBitRef m (cap (6 + 2 * i)) = some (v.getLsbD (111 - i)) := by
  rw [h.space i hi, spaceBitRef_bitSpace h1 h3]

theorem HoldsFrame.cellOkRef (h1 : MP1 m) (h3 : MP3 m) (h : HoldsFrame v cap) {i : Nat} (hi : i < 112) :
    cellOkRef m mode cap i = true := by
  simp [Machine.cellOkRef, h.mark i hi, markOkRef_bitMark h1, h.spaceBitRef h1 h3 hi]

/-- The first `k` cells give the top `k` bits of the payload (R44, R113). -/
theorem HoldsFrame.payloadUpTo (h1 : MP1 m) (h3 : MP3 m) (h : HoldsFrame v cap) {k : Nat} (hk : k ≤ 112) :
    payloadUpTo m cap k = v.toNat / 2 ^ (112 - k) := by
  induction k with
  | zero => exact (Nat.div_eq_of_lt v.isLt).symm
  | succ k ih =>
    have hbit : (if v.getLsbD (111 - k) = true then 1 else 0) = v.toNat / 2 ^ (111 - k) % 2 := by
      rw [BitVec.getLsbD, Nat.testBit_eq_decide_div_mod_eq]
      obtain h0 | h1 := Nat.mod_two_eq_zero_or_one (v.toNat / 2 ^ (111 - k)) <;> simp [*]
    have hhalf : v.toNat / 2 ^ (112 - k) = v.toNat / 2 ^ (111 - k) / 2 := by
      rw [Nat.div_div_eq_div_mul, ← Nat.pow_succ, show (111 - k).succ = 112 - k by omega]
    rw [payloadUpTo_succ, h.spaceBitRef h1 h3 (by omega), ih (by omega), hhalf, show 112 - (k + 1) = 111 - k by omega]
    simp only [Option.some.injEq, hbit]
    omega

theorem HoldsFrame.decodeRef (h1 : MP1 m) (h3 : MP3 m) (h : HoldsFrame v cap) :
    decodeRef m mode tag 230 cap = .isMatch v 112 tag := by
  rw [decodeRef_sound (h.headerOkRef h1) fun i hi => h.cellOkRef h1 h3 hi, h.payloadUpTo h1 h3 le_rfl]
  simp

end

/-- The operands of cell `i` stand at `2 * i` and `2 * i + 1` of the cells' operands. -/
theorem getD_flatMap_pair {l : List Nat} {f g : Nat → Nat} {i : Nat} (hi : i < l.length) (rest : List Nat) :
    (l.flatMap (fun c => [f c, g c]) ++ rest).getD (2 * i) 0 = f l[i]
      ∧ (l.flatMap (fun c => [f c, g c]) ++ rest).getD (2 * i + 1) 0 = g l[i] := by
  induction l generalizing i with
  | nil => exact absurd hi (Nat.not_lt_zero i)
  | cons c l ih =>
    cases i with
    | zero => exact ⟨rfl, rfl⟩
    | succ i => exact ih (i := i) (by simpa using hi)

theorem loopOf_traceOf (v : Payload) (gap : Nat) :
    loopOf (traceOf v 112) gap = [gap, 3050, 3050, 3050, 4350]
      ++ (((List.range 112).flatMap fun c => [600, if v.getLsbD (111 - c) then 1690 else 600]) ++ [600]) := by
  have hlast : traceOf v 112 = (.setCarrier 38 :: (headerCmds ++ (cellCmds v 112 ++ [.mark 600]))) ++ [.space 0] := by
    simp [traceOf, trailerCmds]
  have hcell : ∀ b, (bitCmds b).filterMap EmitCmd.interval = [600, if b then 1690 else 600] := by
    intro b; cases b <;> rfl
  rw [loopOf, hlast, List.dropLast_concat, cellCmds]
  simp [headerCmds, EmitCmd.interval, List.filterMap_cons, List.filterMap_flatMap, hcell]

theorem holdsFrame_loopOf (v : Payload) (gap : Nat) :
    HoldsFrame v fun i => (loopOf (traceOf v 112) gap).getD i 0 := by
  simp only [loopOf_traceOf]
  have hpair := fun i (hi : i < 112) => getD_flatMap_pair (l := List.range 112) (f := fun _ => 600)
    (g := fun c => if v.getLsbD (111 - c) then 1690 else 600) (i := i) (by simpa using hi) [600]
  refine ⟨rfl, rfl, rfl, rfl, fun i hi => ?_, fun i hi => ?_⟩
  · rw [Nat.add_comm]; exact (hpair i hi).1
  · rw [show 6 + 2 * i = 2 * i + 1 + 5 by omega]; simpa using (hpair i hi).2

theorem length_loopOf (v : Payload) (gap : Nat) : (loopOf (traceOf v 112) gap).length = 230 := by
  simp [loopOf_traceOf, List.length_flatMap]

theorem matchTol_mp1 : MP1 matchTol := by
  rintro r n (rfl | rfl | rfl | rfl) <;> cases r <;> simp [matchTol, matchWith, isTableDur, Config.timing]

theorem matchTol_mp3 : MP3 matchTol := by
  simp [MP3, matchTol, matchWith, isFixedNo, Config.timing]

theorem State.decodeReturn_isMatch {s : State} {v : Payload} {n : BitNo} {tag : Nat}
    (h : s.decodeReturn = some (.isMatch v n tag)) :
    s.res.status = .stMatch ∧ s.res.value = v ∧ s.res.bits = n ∧ s.res.tag = tag := by
  cases hs : s.res.status <;> simp_all [State.decodeReturn]

/-- Settles O41: the buffer holds the frame, which the function decodes to the payload, and the run computes it. -/
theorem frameDecodesToItsPayload : Obligations.FrameDecodesToItsPayload := by
  refine ⟨fun v gap s hsized hs hf hp hscript hcount hcells => ?_, fun m mode tag v gap h1 h3 => ?_⟩
  · obtain ⟨t, hrun, hend⟩ := run_decode hsized hs hf hp hscript
    have hframe : HoldsFrame v s.capture.cells.read := (holdsFrame_loopOf v gap).congr hcells
    have hverdict := hend.verdict
    rw [State.verdict, hcount, length_loopOf, hframe.decodeRef matchTol_mp1 matchTol_mp3] at hverdict
    obtain ⟨hstatus, hvalue, hbits, htag⟩ := State.decodeReturn_isMatch hverdict
    exact ⟨_, hrun, hstatus, hend.valid hstatus, hvalue, hbits, htag⟩
  · rw [length_loopOf]
    exact (holdsFrame_loopOf v gap).decodeRef h1 h3

end Sys2Proof.Machine

/-! The port words: the decoder reads back what the encoder writes, and reads nothing else (R61 to R66, R70). -/

namespace Sys2Proof.Machine

open Sys2Proof

/-! Format H. -/

/-- Format H is read by bit 119 alone (R61 to R63). -/
theorem decodeHost_eq (w : HostWord) :
    decodeHost w = if 2 ^ 119 ≤ w.toNat then .decode
      else .encode (BitVec.ofNat 112 w.toNat) (BitVec.ofNat 7 (w.toNat / 2 ^ 112)) := by
  have hop : (w.extractLsb' 119 1).toNat = if 2 ^ 119 ≤ w.toNat then 1 else 0 := by
    rw [BitVec.extractLsb'_toNat, Nat.shiftRight_eq_div_pow]
    split <;> omega
  have hfields : w.extractLsb' 0 112 = BitVec.ofNat 112 w.toNat
      ∧ w.extractLsb' 112 7 = BitVec.ofNat 7 (w.toNat / 2 ^ 112) := by
    constructor <;> refine BitVec.eq_of_toNat_eq ?_ <;> simp [Nat.shiftRight_eq_div_pow]
  by_cases htop : 2 ^ 119 ≤ w.toNat
  · simp only [decodeHost, hop, if_pos htop]
  · simp only [decodeHost, hop, hfields, if_neg htop]

theorem toNat_encodeWordH (p : Payload) (n : BitNo) : (encodeWordH p n).toNat = n.toNat * 2 ^ 112 + p.toNat := by
  rw [encodeWordH, BitVec.toNat_append, ← Nat.shiftLeft_add_eq_or_of_lt p.isLt, BitVec.toNat_append]
  simp [Nat.shiftLeft_eq]

/-- ENCODE decodes back, with any payload and width (R62). -/
theorem decodeHost_encodeWordH (p : Payload) (n : BitNo) : decodeHost (encodeWordH p n) = .encode p n := by
  have hn := n.isLt
  have hp := p.isLt
  have hwidth : (n.toNat * 2 ^ 112 + p.toNat) / 2 ^ 112 = n.toNat := by omega
  have hpayload : BitVec.ofNat 112 (n.toNat * 2 ^ 112 + p.toNat) = p := by
    refine BitVec.eq_of_toNat_eq ?_
    rw [BitVec.toNat_ofNat]; omega
  rw [decodeHost_eq, toNat_encodeWordH, hwidth, hpayload, if_neg (by omega), BitVec.ofNat_toNat, BitVec.setWidth_eq]

/-- A host word is DECODE or the word of an ENCODE (R61 to R63). -/
theorem decodeHost_cases (w : HostWord) :
    decodeHost w = .decode ∨ ∃ p n, decodeHost w = .encode p n ∧ w = encodeWordH p n := by
  rw [decodeHost_eq]
  split
  · exact .inl rfl
  · refine .inr ⟨_, _, rfl, BitVec.eq_of_toNat_eq ?_⟩
    rw [toNat_encodeWordH, BitVec.toNat_ofNat, BitVec.toNat_ofNat]
    omega

/-! Formats E and Q. -/

/-- A number in which `x` stands above `b.durW` bits is `x` and those bits. -/
theorem Build.eq_of_div {b : Build} {w x : Nat} (h : w / 2 ^ b.durW = x) : w = x * 2 ^ b.durW + b.asDur w := by
  rw [← h, Build.asDur, Nat.div_add_mod']

theorem Build.durFits_asDur (b : Build) (x : Nat) : b.durFits (b.asDur x) = true :=
  decide_eq_true (Nat.mod_lt x (Nat.two_pow_pos b.durW))

/-- A format E word with a meaning is the word of an emitter command of the build (R64). -/
theorem decodeEmit_ok {b : Build} {w : Nat} {i : Instr} (h : decodeEmit b w = .ok i) :
    ∃ c : EmitCmd, i = c.toInstr ∧ w = c.word b ∧ c.toInstr.wellFormed b = true := by
  unfold decodeEmit at h
  split at h
  case h_1 heop => cases h; exact ⟨.space _, rfl, Build.eq_of_div heop, Build.durFits_asDur b w⟩
  case h_2 heop => cases h; exact ⟨.mark _, rfl, Build.eq_of_div heop, Build.durFits_asDur b w⟩
  case h_3 heop => cases h; exact ⟨.setCarrier _, rfl, Build.eq_of_div heop, Build.durFits_asDur b w⟩
  case h_4 => cases h
  case h_5 => cases h

/-- A number is a MATCH request when its top part is the role (R66). -/
theorem eq_matchWordOf {b : Build} {w : Nat} {r : Role} (h : w / 2 ^ (2 * b.durW) = roleBit r) :
    w = matchWordOf b r (b.asDur (w / 2 ^ b.durW)) (b.asDur w) := by
  rw [two_mul, Nat.pow_add, ← Nat.div_div_eq_div_mul] at h
  rw [matchWordOf, ← Build.eq_of_div h]
  exact Build.eq_of_div rfl

/-- A MATCH request with a meaning is the word of a query of the build (R66). -/
theorem decodeMatch_ok {b : Build} {w : Nat} {i : Instr} (h : decodeMatch b w = .ok i) :
    ∃ r a n, i = .matchDur r a n ∧ w = matchWordOf b r a n ∧ (Instr.matchDur r a n).wellFormed b = true := by
  have hfit : ∀ r, (Instr.matchDur r (b.asDur (w / 2 ^ b.durW)) (b.asDur w)).wellFormed b = true := fun r => by
    simp [Instr.wellFormed, Build.durFits_asDur]
  unfold decodeMatch at h
  split at h
  case h_1 hrole => cases h; exact ⟨.space, _, _, rfl, eq_matchWordOf hrole, hfit _⟩
  case h_2 hrole => cases h; exact ⟨.mark, _, _, rfl, eq_matchWordOf hrole, hfit _⟩
  case h_3 => cases h

theorem encode_toInstr (b : Build) (c : EmitCmd) : encode b c.toInstr = .emitter (c.word b) := by
  cases c <;> rfl

/-- Settles O1: on each port the operands are read back from the fields that the encoder put them in. -/
theorem decodeOfEncodedInstruction : Obligations.DecodeOfEncodedInstruction := by
  intro b i h
  cases i with
  | encode p n => exact congrArg _ (decodeHost_encodeWordH p n)
  | decode => rfl
  | space d => exact decode_emitCmd_word (c := .space d) h
  | mark d => exact decode_emitCmd_word (c := .mark d) h
  | setCarrier k => exact decode_emitCmd_word (c := .setCarrier k) h
  | capRead k => rfl
  | matchDur r a n => exact decode_matchWordOf h

/-- Settles O2: a word with a meaning is the encoder's word for it, on each of the four ports. -/
theorem encodeOfDecodedWord : Obligations.EncodeOfDecodedWord := by
  intro b w i h hne
  cases w with
  | host w =>
    obtain rfl : decodeHost w = i := Except.ok.inj h
    obtain hdec | ⟨p, n, henc, hw⟩ := decodeHost_cases w
    · exact absurd hdec hne
    · rw [henc, hw]; rfl
  | emitter w => obtain ⟨c, rfl, rfl, -⟩ := decodeEmit_ok h; exact encode_toInstr b c
  | capture w => cases h; rfl
  | matcher w => obtain ⟨r, a, n, rfl, rfl, -⟩ := decodeMatch_ok h; rfl

/-- Settles O3: the decoder runs on each word. -/
theorem specWordsDecode : Obligations.SpecWordsDecode := by
  unfold Obligations.SpecWordsDecode; decide

/-- Settles O4: format H is read by bit 119 alone. -/
theorem hostWordReadByBit119 : Obligations.HostWordReadByBit119 := by
  intro b w
  rw [decode, decodeHost_eq]
  split <;> rfl

/-! What is rejected (R70, R71). -/

theorem decodeEmit_reserved {b : Build} {x : Nat} (h : x / 2 ^ b.durW = 3) :
    decodeEmit b x = .error .reservedEmitterOp := by
  simp [decodeEmit, h]

theorem decodeEmit_tooWide {b : Build} {x : Nat} (h : 2 ^ (2 + b.durW) ≤ x) :
    decodeEmit b x = .error .wordTooWide := by
  have htop : 4 ≤ x / 2 ^ b.durW := by
    rw [Nat.le_div_iff_mul_le (Nat.two_pow_pos _)]
    rwa [Nat.pow_add] at h
  unfold decodeEmit
  split
  case h_5 => rfl
  all_goals omega

theorem decodeEmit_error {b : Build} {x : Nat} {r : DecodeReject} (h : decodeEmit b x = .error r) :
    (r = .reservedEmitterOp ∧ x / 2 ^ b.durW = 3) ∨ (r = .wordTooWide ∧ 2 ^ (2 + b.durW) ≤ x) := by
  unfold decodeEmit at h
  split at h
  case h_4 heop => cases h; exact .inl ⟨rfl, heop⟩
  case h_5 h0 h1 h2 h3 =>
    cases h
    refine .inr ⟨rfl, ?_⟩
    rw [Nat.pow_add, ← Nat.le_div_iff_mul_le (Nat.two_pow_pos _)]
    generalize x / 2 ^ b.durW = eop at h0 h1 h2 h3 ⊢
    simp only [imp_false] at h0 h1 h2 h3
    omega
  all_goals cases h

theorem decodeMatch_tooWide {b : Build} {x : Nat} (h : 2 ^ (1 + 2 * b.durW) ≤ x) :
    decodeMatch b x = .error .wordTooWide := by
  have htop : 2 ≤ x / 2 ^ (2 * b.durW) := by
    rw [Nat.le_div_iff_mul_le (Nat.two_pow_pos _)]
    rwa [Nat.pow_add] at h
  unfold decodeMatch
  split
  case h_3 => rfl
  all_goals omega

theorem decodeMatch_error {b : Build} {x : Nat} {r : DecodeReject} (h : decodeMatch b x = .error r) :
    r = .wordTooWide ∧ 2 ^ (1 + 2 * b.durW) ≤ x := by
  unfold decodeMatch at h
  split at h
  case h_3 h0 h1 =>
    cases h
    refine ⟨rfl, ?_⟩
    rw [Nat.pow_add, ← Nat.le_div_iff_mul_le (Nat.two_pow_pos _)]
    generalize x / 2 ^ (2 * b.durW) = role at h0 h1 ⊢
    simp only [imp_false] at h0 h1
    omega
  all_goals cases h

/-- Settles O5: formats H and CAPREAD give every word of their width a meaning, formats E and MATCH reject by their top
part. -/
theorem onlyReservedEopIsRejected : Obligations.OnlyReservedEopIsRejected := by
  refine ⟨fun b w r h => ?_, fun b x => decodeEmit_reserved, fun b w h => ?_⟩
  · cases w with
    | host w => cases h
    | emitter x => exact (decodeEmit_error h).imp (fun ⟨hr, hx⟩ => ⟨hr, x, rfl, hx⟩) id
    | capture w => cases h
    | matcher x => exact .inr (decodeMatch_error h)
  · cases w with
    | host w => exact absurd w.isLt (Nat.not_lt.mpr h)
    | emitter x => exact decodeEmit_tooWide h
    | capture w => exact absurd w.isLt (Nat.not_lt.mpr h)
    | matcher x => exact decodeMatch_tooWide h

end Sys2Proof.Machine

/-! One move: what each agent does, said once (R81, R91, R101, R135, R136, R138), and how a step runs it. -/

namespace Sys2Proof.Machine

open Sys2Proof

/-- What a move does where it answers a next state, a constructor per effect. -/
inductive State.Moves (s : State) : Act → State → Prop
  /-- The agent finds no word on its port. -/
  | noWord (a : Act) (hport : a = .host ∨ a = .emitter ∨ a = .capture ∨ a = .matcher) (hf : s.fetch a = none) :
      s.Moves a s
  /-- The host command is for a busy agent. -/
  | pending : s.Moves .host s
  | encode (p : Payload) (n : BitNo) (hs : s.enc.phase = .idle) (hn : n.toNat ≤ 112) :
      s.Moves .host (s.acceptEncode p n)
  | decode (hs : s.dec.state = .idle) : s.Moves .host s.acceptDecode
  | issue : s.Moves .enc { s with enc := s.enc.issue s.build }
  | command (c : EmitCmd) (hp : s.enc.port = some (c.word s.build)) (hw : c.toInstr.wellFormed s.build = true) :
      s.Moves .emitter (s.runCommand c)
  | dec : s.Moves .dec s.moveDec
  | read (i : CapIdx) (d : Nat) (hp : s.dec.capPort = some i) (hr : s.readEntry i = some d) :
      s.Moves .capture (s.answerRead i d)
  | answer (r : Role) (a n : Nat) (hp : s.dec.matchPort = some (matchWordOf s.build r a n))
      (hw : (Instr.matchDur r a n).wellFormed s.build = true) :
      s.Moves .matcher (s.answerMatch r a n (matchTol r a n))
  | present (w : HostWord) : s.Moves (.present w) { s with hostPort := some w }
  | withdraw : s.Moves .withdraw { s with hostPort := none }
  | capWrite (i d : Nat) : s.Moves (.capWrite i d) (s.capWrite i d)
  | capCount (n : Nat) : s.Moves (.capCount n) (s.capCount n)
  | reset : s.Moves .reset s.blockReset

theorem State.decBusy_eq_false {s : State} : s.decBusy = false ↔ s.dec.state = .idle := by
  simp [State.decBusy]

theorem State.decBusy_eq_true {s : State} : s.decBusy = true ↔ s.dec.state ≠ .idle := by
  simp [State.decBusy]

theorem exec_decode_accepted {s : State} (hs : s.dec.state = .idle) : exec .decode s = .next s.acceptDecode := by
  simp [exec, execDecode, State.decBusy_eq_false.mpr hs]

theorem exec_decode_busy {s : State} (hs : s.dec.state ≠ .idle) : exec .decode s = .next s := by
  simp [exec, execDecode, State.decBusy_eq_true.mpr hs]

theorem exec_capRead {s : State} {i : CapIdx} {d : Nat} (h : s.readEntry i = some d) :
    exec (.capRead i) s = .next (s.answerRead i d) := by
  simp [exec, execCapRead, h]

theorem exec_capRead_absent {s : State} {i : CapIdx} (h : s.readEntry i = none) :
    exec (.capRead i) s = .fault (.captureEntryAbsent i) := by
  simp [exec, execCapRead, h]

theorem State.readEntry_touched {s : State} {i : CapIdx} (h : s.capture.touched i = true) :
    s.readEntry i = some (s.build.asDur (Config.freeDur s.draws)) :=
  if_pos h

theorem State.readEntry_present {s : State} {i : CapIdx} (h : s.capture.touched i = false)
    (hi : i.toNat < s.capture.count) : s.readEntry i = some (s.capture.cells.read i.toNat) := by
  simp [State.readEntry, h, hi]

theorem State.readEntry_absent {s : State} {i : CapIdx} (h : s.capture.touched i = false)
    (hi : s.capture.count ≤ i.toNat) : s.readEntry i = none := by
  simp [State.readEntry, h, hi]

/-! What each port's word can be. -/

theorem State.moves_host {s t : State} {w : HostWord} (h : exec (decodeHost w) s = .next t) : s.Moves .host t := by
  obtain hd | ⟨p, n, he, -⟩ := decodeHost_cases w
  · rw [hd] at h
    by_cases hs : s.dec.state = .idle
    · rw [exec_decode_accepted hs] at h
      cases h; exact .decode hs
    · rw [exec_decode_busy hs] at h
      cases h; exact .pending
  · rw [he] at h
    by_cases hs : s.enc.phase = .idle
    · by_cases hn : n.toNat ≤ 112
      · rw [exec_encode_accepted hs hn] at h
        cases h; exact .encode p n hs hn
      · rw [exec_encode_refused hs (by omega)] at h
        cases h
    · rw [exec_encode_busy hs] at h
      cases h; exact .pending

/-- The emitter port with a meaning holds an emitter command of the build. -/
theorem State.emitterWord_ok {s : State} {w : PortWord} {i : Instr} (hf : s.fetch .emitter = some w)
    (hd : decode s.build w = .ok i) : ∃ c : EmitCmd, i = c.toInstr ∧ s.enc.port = some (c.word s.build)
      ∧ c.toInstr.wellFormed s.build = true := by
  obtain ⟨x, hx, rfl⟩ := Option.map_eq_some_iff.mp hf
  obtain ⟨c, rfl, rfl, hw⟩ := decodeEmit_ok hd
  exact ⟨c, rfl, hx, hw⟩

/-- The MATCH port with a meaning holds a query of the build. -/
theorem State.matcherWord_ok {s : State} {w : PortWord} {i : Instr} (hf : s.fetch .matcher = some w)
    (hd : decode s.build w = .ok i) : ∃ r a n, i = .matchDur r a n
      ∧ s.dec.matchPort = some (matchWordOf s.build r a n) ∧ (Instr.matchDur r a n).wellFormed s.build = true := by
  obtain ⟨x, hx, rfl⟩ := Option.map_eq_some_iff.mp hf
  obtain ⟨r, a, n, rfl, rfl, hw⟩ := decodeMatch_ok hd
  exact ⟨r, a, n, rfl, hx, hw⟩

theorem exec_capRead_next {s t : State} {i : CapIdx} (h : exec (.capRead i) s = .next t) :
    ∃ d, s.readEntry i = some d ∧ t = s.answerRead i d := by
  cases hr : s.readEntry i with
  | some d => rw [exec_capRead hr] at h; cases h; exact ⟨d, rfl, rfl⟩
  | none => rw [exec_capRead_absent hr] at h; cases h

/-- A move that answers a next state has one of the effects of `State.Moves`. -/
theorem moves_of_runAct {a : Act} {s t : State} (h : runAct a s = .next t) : s.Moves a t := by
  obtain ⟨hf, rfl⟩ | ⟨w, i, hf, hd, hx⟩ := runAct_next h
  · cases a with
    | host => exact .noWord _ (by simp) hf
    | emitter => exact .noWord _ (by simp) hf
    | capture => exact .noWord _ (by simp) hf
    | matcher => exact .noWord _ (by simp) hf
    | enc => exact .issue
    | dec => exact .dec
    | present w => exact .present w
    | withdraw => exact .withdraw
    | capWrite i d => exact .capWrite i d
    | capCount n => exact .capCount n
    | reset => exact .reset
  · cases a with
    | host =>
      obtain ⟨x, -, rfl⟩ := Option.map_eq_some_iff.mp hf
      cases hd; exact State.moves_host hx
    | emitter =>
      obtain ⟨c, rfl, hp, hw⟩ := State.emitterWord_ok hf hd
      rw [exec_toInstr] at hx
      cases hx; exact .command c hp hw
    | capture =>
      obtain ⟨i, hp, rfl⟩ := Option.map_eq_some_iff.mp hf
      cases hd
      obtain ⟨d, hr, rfl⟩ := exec_capRead_next hx
      exact .read i d hp hr
    | matcher =>
      obtain ⟨r, x, n, rfl, hp, hw⟩ := State.matcherWord_ok hf hd
      cases hx; exact .answer r x n hp hw
    | _ => exact absurd hf (by simp [State.fetch])

/-- A step with a move to make makes it. -/
theorem moves_of_step {s t : State} {a : Act} {rest : List Act} (hs : s.script = a :: rest) (h : step s = .next t) :
    (s.withScript rest).Moves a t :=
  moves_of_runAct ((step_cons hs).symm.trans h)

/-- A step stands still or makes a move. -/
theorem step_cases {s t : State} (h : step s = .next t) :
    t = s ∨ ∃ a rest, s.script = a :: rest ∧ (s.withScript rest).Moves a t := by
  obtain ⟨-, ht⟩ | ⟨a, rest, hs, -⟩ := step_next h
  · exact .inl ht
  · exact .inr ⟨a, rest, hs, moves_of_step hs h⟩

/-! What the operations of `DEC` leave alone. -/

/-- Of `s` only `DEC`, its results and the draws have changed. -/
def State.OnlyDecoder (s t : State) : Prop := t = { s with dec := t.dec, res := t.res, draws := t.draws }

section
variable {s t u : State}

theorem State.OnlyDecoder.refl (s : State) : s.OnlyDecoder s := rfl

theorem State.OnlyDecoder.after (h₂ : t.OnlyDecoder u) (h₁ : s.OnlyDecoder t) : s.OnlyDecoder u := by
  rw [State.OnlyDecoder] at h₁ h₂ ⊢
  rw [h₂, h₁]

theorem State.OnlyDecoder.build (h : s.OnlyDecoder t) : t.build = s.build := (congrArg State.build h :)
theorem State.OnlyDecoder.enc (h : s.OnlyDecoder t) : t.enc = s.enc := (congrArg State.enc h :)
theorem State.OnlyDecoder.emitter (h : s.OnlyDecoder t) : t.emitter = s.emitter := (congrArg State.emitter h :)
theorem State.OnlyDecoder.capture (h : s.OnlyDecoder t) : t.capture = s.capture := (congrArg State.capture h :)
theorem State.OnlyDecoder.hostPort (h : s.OnlyDecoder t) : t.hostPort = s.hostPort := (congrArg State.hostPort h :)
theorem State.OnlyDecoder.script (h : s.OnlyDecoder t) : t.script = s.script := (congrArg State.script h :)

theorem State.OnlyDecoder.sameOutsideDecoder (h : s.OnlyDecoder t) : s.SameOutsideDecoder t :=
  State.sameOutsideDecoder_of_eq h.build h.enc h.emitter h.hostPort h.capture

theorem State.onlyDecoder_finish (f : Option NoMatch) (v : Payload) (s : State) : s.OnlyDecoder (s.finish f v) := by
  obtain ⟨-, h⟩ | ⟨-, h⟩ := s.finish_cases f v <;> rw [h] <;> rfl

theorem State.onlyDecoder_raiseNoMatch (r : NoMatch) (s : State) : s.OnlyDecoder (s.raiseNoMatch r) :=
  (State.onlyDecoder_finish _ _ _).after rfl

theorem State.onlyDecoder_checkLength (s : State) : s.OnlyDecoder s.checkLength := by
  obtain ⟨-, h⟩ | ⟨-, h⟩ := s.checkLength_cases <;> rw [h]
  · exact (State.onlyDecoder_raiseNoMatch _ _).after rfl
  · rfl

theorem State.onlyDecoder_takeBit (b : Bool) (s : State) : s.OnlyDecoder (s.takeBit b) := by
  obtain ⟨-, h⟩ | ⟨-, h⟩ := s.takeBit_cases b <;> rw [h]
  · exact (State.onlyDecoder_finish _ _ _).after rfl
  · rfl

theorem State.onlyDecoder_useAnswer (ok : Bool) (s : State) : s.OnlyDecoder (s.useAnswer ok) := by
  obtain ⟨-, h⟩ | ⟨-, h⟩ | ⟨-, h⟩ | ⟨-, -, h⟩ | ⟨-, -, -, h⟩ | ⟨-, -, -, h⟩ := s.useAnswer_cases ok <;> rw [h]
  · exact .refl s
  · split
    · rfl
    · exact State.onlyDecoder_raiseNoMatch _ s
  · split
    · rfl
    · exact State.onlyDecoder_raiseNoMatch _ s
  · exact State.onlyDecoder_takeBit _ s
  · exact State.onlyDecoder_raiseNoMatch _ s
  · rfl

theorem State.onlyDecoder_advanceScan (s : State) : s.OnlyDecoder s.advanceScan := by
  obtain ⟨-, h⟩ | ⟨-, -, -, h⟩ | ⟨x, r, -, -, -, -, h⟩ | ⟨x, -, -, -, -, h⟩ := s.advanceScan_cases <;> rw [h] <;> rfl

/-- A move of `DEC` does nothing when it is idle, checks the length, or goes on with the entry of its step. -/
theorem State.moveDec_cases (s : State) :
    (s.dec.state = .idle ∧ s.moveDec = s) ∨ (s.dec.state = .len ∧ s.moveDec = s.checkLength)
      ∨ (s.dec.state.scanning = true ∧ s.moveDec = s.advanceScan) := by
  unfold State.moveDec
  cases s.dec.state <;> simp [DecState.scanning]

theorem State.onlyDecoder_moveDec (s : State) : s.OnlyDecoder s.moveDec := by
  obtain ⟨-, h⟩ | ⟨-, h⟩ | ⟨-, h⟩ := s.moveDec_cases <;> rw [h]
  · exact .refl s
  · exact State.onlyDecoder_checkLength s
  · exact State.onlyDecoder_advanceScan s

theorem State.onlyDecoder_answerMatch (r : Role) (a n : Nat) (ok : Bool) (s : State) :
    s.OnlyDecoder (s.answerMatch r a n ok) :=
  (State.onlyDecoder_useAnswer _ _).after rfl

/-- The moves of `DEC`, CAPTURE and MATCHER change `DEC`, its results and the draws alone. -/
theorem State.Moves.onlyDecoder {a : Act} (h : s.Moves a t) (ha : a = .dec ∨ a = .capture ∨ a = .matcher) :
    s.OnlyDecoder t := by
  cases h with
  | noWord => exact .refl s
  | dec => exact State.onlyDecoder_moveDec s
  | read => rfl
  | answer => exact State.onlyDecoder_answerMatch _ _ _ _ s
  | _ => simp at ha

end

/-- Only `ENC`'s registers and the emitter change in a move of `ENC` or EMITTER. -/
theorem State.Moves.onlyEncoder {s t : State} {a : Act} (h : s.Moves a t) (ha : a = .enc ∨ a = .emitter) :
    t = { s with enc := t.enc, emitter := t.emitter } := by
  cases h with
  | noWord => rfl
  | issue => rfl
  | command => rfl
  | _ => simp at ha

/-- Settles O52: the two sides of the block write disjoint parts of the state. -/
theorem agentsShareNoState : Obligations.AgentsShareNoState := by
  intro s t a h
  have hmove := moves_of_runAct h
  refine ⟨fun ha => ?_, fun ha => (hmove.onlyDecoder ha).sameOutsideDecoder⟩
  rw [hmove.onlyEncoder ha]
  exact ⟨rfl, rfl, rfl, rfl, rfl, ⟨fun _ => rfl, rfl⟩, rfl, rfl⟩

theorem State.Moves.build {s t : State} {a : Act} (h : s.Moves a t) : t.build = s.build := by
  cases h with
  | dec => exact (State.onlyDecoder_moveDec s).build
  | answer => exact (State.onlyDecoder_answerMatch _ _ _ _ s).build
  | _ => rfl

/-- Settles O56: no move writes the build. -/
theorem stepKeepsBuild : Obligations.StepKeepsBuild := by
  intro s t h
  obtain rfl | ⟨a, rest, -, hmove⟩ := step_cases h
  · rfl
  · exact hmove.build

/-- The buffer is written by CAPTURE's own moves; reset and an accepted DECODE clear its marks alone. -/
theorem State.Moves.sameBuffer {s t : State} {a : Act} (h : s.Moves a t) (hwrite : ∀ i d, a ≠ .capWrite i d)
    (hcount : ∀ n, a ≠ .capCount n) : s.SameBuffer t := by
  have heq : t.capture = s.capture → s.SameBuffer t := fun h => ⟨fun _ => by rw [h], by rw [h]⟩
  cases h with
  | dec => exact heq (State.onlyDecoder_moveDec s).capture
  | answer => exact heq (State.onlyDecoder_answerMatch _ _ _ _ s).capture
  | decode => exact ⟨fun _ => rfl, rfl⟩
  | reset => exact ⟨fun _ => rfl, rfl⟩
  | capWrite i d => exact absurd rfl (hwrite i d)
  | capCount n => exact absurd rfl (hcount n)
  | _ => exact heq rfl

/-- Settles O50: only CAPTURE's own two moves write the buffer. -/
theorem blockNeverWritesTheBuffer : Obligations.BlockNeverWritesTheBuffer :=
  fun _ _ _ _ hs h hwrite hcount => (moves_of_step hs h).sameBuffer hwrite hcount

end Sys2Proof.Machine

/-! The invariant of the machine: it holds at reset, every move keeps it, and it excludes faults (R15, R18, R19, R22,
R24, R30, R46, R49). -/

namespace Sys2Proof.Machine

open Sys2Proof

/-! The encoder's part. -/

/-- The count is in range for the phase: at least 1 in a bit cell, 0 in the trailer (R15, R85, R86). -/
structure EncPhase.CountOk (p : EncPhase) (n : BitNo) : Prop where
  le : n.toNat ≤ 112
  cell : p.inCell = true → 1 ≤ n.toNat
  trailer : p = .trailMark ∨ p = .trailSpace → n = 0

theorem EncPhase.countOk_cellPhase {n : BitNo} (h : n.toNat ≤ 112) : (cellPhase n).CountOk n := by
  by_cases hn : n = 0
  · subst hn; exact ⟨by decide, by decide, by decide⟩
  · have hpos : n.toNat ≠ 0 := fun h0 => hn (BitVec.eq_of_toNat_eq h0)
    rw [cellPhase, if_neg hn]
    exact ⟨h, fun _ => by omega, by simp⟩

/-- The loop tests keep the count in range: no phase is entered with a count that it does not allow (R84, R86). -/
theorem EncPhase.CountOk.next {p : EncPhase} {n : BitNo} (h : p.CountOk n) :
    (p.next n).CountOk (if p = .bitSpace then n - 1 else n) := by
  have hle := h.le
  cases p with
  | hs2 => exact EncPhase.countOk_cellPhase hle
  | bitMark => exact ⟨hle, fun _ => h.cell rfl, by simp [EncPhase.next]⟩
  | bitSpace =>
    have hpred := BitNo.toNat_pred (h.cell rfl)
    exact EncPhase.countOk_cellPhase (hpred ▸ (Nat.sub_le _ _).trans hle)
  | trailMark => exact ⟨hle, by simp [EncPhase.next, EncPhase.inCell], fun _ => h.trailer (.inl rfl)⟩
  | _ => exact ⟨hle, by simp [EncPhase.next, EncPhase.inCell], by simp [EncPhase.next]⟩

theorem Encoder.Ok.countOk {b : Build} {e : Encoder} (h : e.Ok b) : e.phase.CountOk e.cnt := by
  obtain ⟨hle, hcell, htrailer, -⟩ := h
  exact ⟨hle, hcell, htrailer⟩

theorem Encoder.Ok.issue {b : Build} {e : Encoder} (h : e.Ok b) : (e.issue b).Ok b := by
  obtain heq | ⟨c, -, hc, heq⟩ := e.issue_cases b <;> rw [heq]
  · exact h
  · obtain ⟨hle, hcell, htrailer, -⟩ := h
    refine ⟨hle, hcell, htrailer, .inr (congrArg (Option.map (EmitCmd.word b)) hc).symm, fun hidle => ?_⟩
    have hnone : e.command = none := by simp [Encoder.command, show e.phase = .idle from hidle]
    exact absurd (hnone.symm.trans hc) (by simp)

theorem Encoder.Ok.complete {b : Build} {e : Encoder} (h : e.Ok b) : e.complete.Ok b := by
  obtain ⟨hle, hcell, htrailer⟩ := h.countOk.next
  exact ⟨hle, hcell, htrailer, .inl rfl, fun _ => rfl⟩

theorem Encoder.ok_reset (b : Build) (l : List EmitCmd) : Encoder.Ok b { Encoder.reset with trace := l } :=
  ⟨Nat.zero_le _, nofun, fun _ => rfl, .inl rfl, fun _ => rfl⟩

theorem Emitter.run_carrier_lt {b : Build} {m : Emitter} {c : EmitCmd} (hw : c.toInstr.wellFormed b = true)
    (hm : m.carrier < 2 ^ b.durW) : (m.run c).carrier < 2 ^ b.durW := by
  cases c with
  | setCarrier k => exact of_decide_eq_true hw
  | mark d => exact hm
  | space d => exact hm

theorem Emitter.run_wire_lt {b : Build} {m : Emitter} {c : EmitCmd} (hw : c.toInstr.wellFormed b = true)
    (hm : ∀ x ∈ m.wire, x.dur < 2 ^ b.durW) : ∀ x ∈ (m.run c).wire, x.dur < 2 ^ b.durW := by
  have hsent : ∀ l d, d < 2 ^ b.durW → ∀ x ∈ m.wire ++ [⟨l, d⟩], x.dur < 2 ^ b.durW := fun l d hd =>
    List.forall_mem_append.mpr ⟨hm, by simpa using hd⟩
  cases c with
  | setCarrier k => exact hm
  | mark d => exact hsent .mark d (of_decide_eq_true hw)
  | space d =>
    rw [Emitter.run]
    split
    · exact hm
    · exact hsent .space d (of_decide_eq_true hw)

/-! The decoder's part. -/

theorem Decoder.portsOk_of_fresh {b : Build} {d : Decoder} (h : d.Fresh) : d.PortsOk b := by
  obtain ⟨hcap, hmatch, hentry, hzero⟩ := h
  exact ⟨fun _ => ⟨hcap, hmatch, hentry⟩, .inl hcap, .inl hmatch, by simp [hzero]⟩

section
variable {b : Build} {d : Decoder} (h : d.PortsOk b)
include h

theorem Decoder.PortsOk.fresh (hs : d.state.scanning = false) : d.Fresh := by
  obtain ⟨hnone, -, -, hzero⟩ := h
  obtain ⟨hcap, hmatch, hentry⟩ := hnone hs
  refine ⟨hcap, hmatch, hentry, Bool.eq_false_iff.mpr fun hz => ?_⟩
  have := (hzero hz).2
  simp [hentry] at this

/-- A CAPREAD outstanding is of `DEC_IDX`, in a step that has not read its entry (R49). -/
theorem Decoder.PortsOk.of_capPort {i : CapIdx} (hp : d.capPort = some i) :
    d.state.scanning = true ∧ i = d.idx ∧ d.matchPort = none ∧ d.entry = none := by
  obtain ⟨hnone, hcap, -, -⟩ := h
  have hscan : d.state.scanning = true := by
    by_contra hs
    have := (hnone (Bool.eq_false_iff.mpr hs)).1
    simp [hp] at this
  obtain hcap | ⟨hcap, hmatch, hentry⟩ := hcap
  · simp [hp] at hcap
  · exact ⟨hscan, Option.some.inj (hp.symm.trans hcap), hmatch, hentry⟩

/-- A MATCH outstanding is the one of the step about the entry it has read (R104, R106, R107). -/
theorem Decoder.PortsOk.of_matchPort {w : Nat} (hp : d.matchPort = some w) :
    d.state.scanning = true ∧ d.capPort = none
      ∧ ∃ x r, d.entry = some x ∧ d.matchReq Config.bitMarkMode x = some r ∧ w = r.word b := by
  obtain ⟨hnone, hcap, hmatch, -⟩ := h
  have hscan : d.state.scanning = true := by
    by_contra hs
    have := (hnone (Bool.eq_false_iff.mpr hs)).2.1
    simp [hp] at this
  have hcapnone : d.capPort = none := hcap.resolve_right fun ⟨_, hm, _⟩ => by simp [hp] at hm
  have hbind := (hmatch.resolve_left (by simp [hp])).symm.trans hp
  obtain ⟨x, hx, hmap⟩ := Option.bind_eq_some_iff.mp hbind
  obtain ⟨r, hr, hw⟩ := Option.map_eq_some_iff.mp hmap
  exact ⟨hscan, hcapnone, x, r, hx, hr, hw.symm⟩

end

theorem DecState.two_le_code {d : DecState} (h : d.scanning = true) : d.code.toNat ≥ 2 := by
  cases d <;> simp [DecState.scanning, DecState.code] at h ⊢

/-- A step of `DEC` is at an entry from 1 to 228 (R30, R46). -/
theorem Decoder.InRange.idx_bounds {d : Decoder} (h : d.InRange) (hs : d.state.scanning = true) :
    1 ≤ d.idx.toNat ∧ d.idx.toNat ≤ 228 := by
  obtain ⟨hhdr, hbitm, hbits⟩ := h
  cases hst : d.state with
  | idle => simp [hst, DecState.scanning] at hs
  | len => simp [hst, DecState.scanning] at hs
  | hdr => obtain ⟨hlo, hhi, -⟩ := hhdr hst; omega
  | bitm => obtain ⟨hidx, hi, -⟩ := hbitm hst; omega
  | bits => obtain ⟨hidx, hi, -⟩ := hbits hst; omega

theorem Decoder.inRange_of_not_scanning {d : Decoder} (h : d.state.scanning = false) : d.InRange := by
  refine ⟨fun hs => ?_, fun hs => ?_, fun hs => ?_⟩ <;> simp [hs, DecState.scanning] at h

/-- Segment 3 is the one at index 4 (R104). -/
theorem Decoder.segment_eq_three {d : Decoder} : d.segment = 3 ↔ d.idx = 4 := by
  rw [Decoder.segment, BitVec.sub_eq_iff_eq_add]; rfl

/-- A segment matched in range is followed by the next one, or by the mark of cell 0 (R104). -/
theorem Decoder.InRange.headerOk {d : Decoder} (h : d.InRange) (hs : d.state = .hdr) :
    (d.consume (if d.segment = 3 then .bitm else .hdr)).InRange := by
  obtain ⟨hlo, hhi, hi, hacc⟩ := h.1 hs
  by_cases hlast : d.idx = 4
  · rw [if_pos (Decoder.segment_eq_three.mpr hlast)]
    exact ⟨nofun, fun _ => by simp [hlast, hi, hacc], nofun⟩
  · have hlt : d.idx.toNat ≠ 4 := fun h4 => hlast (BitVec.eq_of_toNat_eq h4)
    have hsucc : (d.idx + 1).toNat = d.idx.toNat + 1 := CapIdx.toNat_succ rfl (by omega)
    rw [if_neg fun h3 => hlast (Decoder.segment_eq_three.mp h3)]
    exact ⟨fun _ => ⟨by rw [Decoder.consume_idx, hsucc]; omega, by rw [Decoder.consume_idx, hsucc]; omega, hi, hacc⟩,
      nofun, nofun⟩

theorem Decoder.InRange.markOk {d : Decoder} (h : d.InRange) (hs : d.state = .bitm) : (d.consume .bits).InRange := by
  obtain ⟨hidx, hi, hacc⟩ := h.2.1 hs
  exact ⟨nofun, nofun, fun _ => ⟨(CapIdx.toNat_succ hidx (by omega)).trans (by simp; omega), hi, hacc⟩⟩

/-- After a bit before the last one the next cell is in range, its accumulator one bit wider (R30, R108). -/
theorem Decoder.InRange.nextCell {d : Decoder} (h : d.InRange) (hs : d.state = .bits) (hlast : d.i.toNat ≠ 111)
    (b : Bool) : Decoder.InRange { d.consume .bitm with acc := appendBit d.acc b, i := d.i + 1 } := by
  obtain ⟨hidx, hi, hacc⟩ := h.2.2 hs
  have hisucc : (d.i + 1).toNat = d.i.toNat + 1 := by rw [BitVec.toNat_add]; simp; omega
  have hwide : (appendBit d.acc b).toNat < 2 ^ (d.i + 1).toNat := by
    have hmod := Nat.mod_le (2 * d.acc.toNat + b.toNat) (2 ^ 112)
    have hb := Bool.toNat_le b
    rw [appendBit_toNat, hisucc, Nat.pow_succ]
    omega
  refine ⟨nofun, fun _ => ⟨?_, by simp only [hisucc]; omega, hwide⟩, nofun⟩
  simp only [hisucc, Decoder.consume_idx, CapIdx.toNat_succ hidx (by omega)]
  omega

/-! The results' part. -/

/-- However a DECODE ends, the record that it leaves is whole (R22, R23, R24). -/
theorem Result.Ok.after {tag : Nat} {r : Result} (h : r.Ok tag) {f : Option NoMatch} (v : Payload)
    (hf : ∀ i, f = some (.bit i) → i.toNat ≤ 111) : (r.after tag f v).Ok tag := by
  obtain ⟨hvalid, hmatch, herr⟩ := h
  cases f with
  | none => exact ⟨fun _ => ⟨rfl, rfl⟩, fun _ => rfl, nofun⟩
  | some e =>
    refine ⟨hvalid, fun hs => ?_, fun hs => ?_⟩
    · cases e <;> cases hs
    · cases e with
      | bit i => exact hf i rfl
      | length => cases hs
      | header => cases hs

theorem Result.tag_after (r : Result) (tag : Nat) (f : Option NoMatch) (v : Payload) :
    (r.after tag f v).tag = if f = none then tag else r.tag := by
  cases f <;> rfl

/-! The buffer's part. -/

theorem Memory.write_lt {m : Memory} {n : Nat} (a : Nat) {v : Nat} (h : ∀ c ∈ m, c.2 < n) (hv : v < n) :
    ∀ c ∈ m.write a v, c.2 < n := by
  induction m with
  | nil =>
    rw [Memory.write]
    split
    · exact h
    · simpa using hv
  | cons c rest ih =>
    obtain ⟨hc, hrest⟩ := List.forall_mem_cons.mp h
    rw [Memory.write]
    split
    · split
      · exact h
      · exact List.forall_mem_cons.mpr ⟨hv, h⟩
    · split
      · split
        · exact hrest
        · exact List.forall_mem_cons.mpr ⟨hv, hrest⟩
      · exact List.forall_mem_cons.mpr ⟨hc, ih hrest⟩

/-! Every operation keeps the invariant. -/

theorem Build.asTag_lt (b : Build) (x : Nat) : b.asTag x < 2 ^ b.tagW := Nat.mod_lt _ (Nat.two_pow_pos _)

section
variable {s : State} (h : s.Inv)
include h

theorem State.Inv.withScript (l : List Act) : (s.withScript l).Inv :=
  ⟨h.sized, h.enc, h.range, h.ports, h.res, h.capture⟩

theorem State.Inv.withHostPort (w : Option HostWord) : State.Inv { s with hostPort := w } :=
  ⟨h.sized, h.enc, h.range, h.ports, h.res, h.capture⟩

theorem State.Inv.withDraws (k : Nat) : State.Inv { s with draws := k } :=
  ⟨h.sized, h.enc, h.range, h.ports, h.res, h.capture⟩

theorem State.Inv.acceptEncode (p : Payload) {n : BitNo} (hs : s.enc.phase = .idle) (hn : n.toNat ≤ 112) :
    (s.acceptEncode p n).Inv := by
  obtain ⟨-, -, -, -, hport⟩ := h.enc
  refine ⟨h.sized, ⟨hn, nofun, ?_, .inl (hport hs), nofun⟩, h.range, h.ports, h.res, h.capture⟩
  simp

theorem State.Inv.issue : State.Inv { s with enc := s.enc.issue s.build } :=
  ⟨h.sized, h.enc.issue, h.range, h.ports, h.res, h.capture⟩

theorem State.Inv.runCommand {c : EmitCmd} (hw : c.toInstr.wellFormed s.build = true) : (s.runCommand c).Inv := by
  obtain ⟨hlegal, hcells, hcount, htag, hcarrier, hwire, hentry⟩ := h.sized
  exact ⟨⟨hlegal, hcells, hcount, htag, Emitter.run_carrier_lt hw hcarrier, Emitter.run_wire_lt hw hwire, hentry⟩,
    h.enc.complete, h.range, h.ports, h.res, h.capture⟩

/-- What the invariant asks of other decoder registers in place of those of `s`. -/
theorem State.Inv.withDec {d : Decoder} (hrange : d.InRange) (hports : d.PortsOk s.build)
    (hentry : d.entry.getD 0 < 2 ^ s.build.durW)
    (hcount : d.state.scanning = true → s.capture.countLow = none → s.capture.count = 230)
    (hbusy : d.state ≠ .idle → s.dec.state ≠ .idle) : State.Inv { s with dec := d } := by
  obtain ⟨hlegal, hcells, hcap, htag, hcarrier, hwire, -⟩ := h.sized
  obtain ⟨hwf, -, hlow⟩ := h.capture
  exact ⟨⟨hlegal, hcells, hcap, htag, hcarrier, hwire, hentry⟩, h.enc, hrange, hports, h.res,
    hwf, hcount, fun hd => hlow (State.decBusy_eq_true.mpr (hbusy (State.decBusy_eq_true.mp hd)))⟩

/-- A step of `DEC` that is over leaves no query and no entry. -/
theorem State.Inv.withFreshDec {d : Decoder} (hrange : d.InRange) (hf : d.Fresh)
    (hscan : d.state.scanning = true → s.dec.state.scanning = true)
    (hbusy : d.state ≠ .idle → s.dec.state ≠ .idle) : State.Inv { s with dec := d } := by
  obtain ⟨-, hcount, -⟩ := h.capture
  refine h.withDec hrange (Decoder.portsOk_of_fresh hf) ?_ (fun hd => hcount (hscan hd)) hbusy
  rw [hf.2.2.1]
  exact Nat.two_pow_pos _

theorem State.Inv.finish {f : Option NoMatch} (v : Payload) (hf : ∀ i, f = some (.bit i) → i.toNat ≤ 111) :
    (s.finish f v).Inv := by
  obtain ⟨hlegal, hcells, hcount, htag, hcarrier, hwire, hentry⟩ := h.sized
  have hafter : ∀ (g : Option NoMatch) (u : Payload) (k : Nat), (∀ i, g = some (.bit i) → i.toNat ≤ 111) →
      State.Inv { s with res := s.res.after s.tag g u, draws := k } := fun g u k hg => by
    refine ⟨⟨hlegal, hcells, hcount, ?_, hcarrier, hwire, hentry⟩, h.enc, h.range, h.ports, h.res.after u hg, h.capture⟩
    simp only [Result.tag_after]
    split
    · exact Build.asTag_lt _ _
    · exact htag
  obtain ⟨-, heq⟩ | ⟨-, heq⟩ := s.finish_cases f v <;> rw [heq]
  · exact hafter f v s.draws hf
  · exact hafter _ _ _ fun i => drawnFailure_bit

theorem State.Inv.raiseNoMatch {r : NoMatch} (hcap : s.dec.capPort = none) (hmatch : s.dec.matchPort = none)
    (hr : ∀ i, r = .bit i → i.toNat ≤ 111) : (s.raiseNoMatch r).Inv :=
  State.Inv.finish
    (h.withFreshDec (d := { s.dec with state := .idle, entry := none, zeroTest := false })
      (Decoder.inRange_of_not_scanning rfl) ⟨hcap, hmatch, rfl, rfl⟩ nofun fun hne => absurd rfl hne)
    _ fun i hi => hr i (Option.some.inj hi)

theorem State.Inv.headerOk (hcap : s.dec.capPort = none) (hmatch : s.dec.matchPort = none)
    (hs : s.dec.state = .hdr) : s.headerOk.Inv :=
  h.withFreshDec (h.range.headerOk hs) ⟨hcap, hmatch, rfl, rfl⟩ (fun _ => by rw [hs]; rfl) (fun _ => by simp [hs])

theorem State.Inv.markOk (hcap : s.dec.capPort = none) (hmatch : s.dec.matchPort = none)
    (hs : s.dec.state = .bitm) : s.markOk.Inv :=
  h.withFreshDec (h.range.markOk hs) ⟨hcap, hmatch, rfl, rfl⟩ (fun _ => by rw [hs]; rfl) (fun _ => by simp [hs])

theorem State.Inv.takeBit (b : Bool) (hcap : s.dec.capPort = none) (hmatch : s.dec.matchPort = none)
    (hs : s.dec.state = .bits) : (s.takeBit b).Inv := by
  obtain ⟨-, heq⟩ | ⟨hlast, heq⟩ := s.takeBit_cases b <;> rw [heq]
  · exact State.Inv.finish
      (h.withFreshDec (d := { s.dec.consume .idle with acc := appendBit s.dec.acc b })
        (Decoder.inRange_of_not_scanning rfl) ⟨hcap, hmatch, rfl, rfl⟩ nofun fun hne => absurd rfl hne)
      _ nofun
  · exact h.withFreshDec (h.range.nextCell hs hlast b) ⟨hcap, hmatch, rfl, rfl⟩ (fun _ => by rw [hs]; rfl)
      (fun _ => by simp [hs])

/-- `DEC` goes on with an answer to a query about the entry it holds. -/
theorem State.Inv.useAnswer (ok : Bool) (hcap : s.dec.capPort = none) (hmatch : s.dec.matchPort = none)
    (hentry : s.dec.entry.isSome = true) : (s.useAnswer ok).Inv := by
  obtain ⟨-, heq⟩ | ⟨hs, heq⟩ | ⟨hs, heq⟩ | ⟨hs, -, heq⟩ | ⟨hs, -, -, heq⟩ | ⟨hs, -, -, heq⟩ := s.useAnswer_cases ok
    <;> rw [heq]
  · exact h
  · split
    · exact h.headerOk hcap hmatch hs
    · exact h.raiseNoMatch hcap hmatch nofun
  · obtain ⟨-, hi, -⟩ := h.range.2.1 hs
    split
    · exact h.markOk hcap hmatch hs
    · exact h.raiseNoMatch hcap hmatch fun i hr => by cases hr; exact hi
  · exact h.takeBit _ hcap hmatch hs
  · obtain ⟨-, hi, -⟩ := h.range.2.2 hs
    exact h.raiseNoMatch hcap hmatch fun i hr => by cases hr; exact hi
  · obtain ⟨-, -, -, -, -, -, hsize⟩ := h.sized
    obtain ⟨-, hcount, -⟩ := h.capture
    exact h.withDec h.range ⟨fun hd => absurd hd (by simp [hs, DecState.scanning]), .inl hcap, .inl hmatch,
      fun _ => ⟨hs, hentry⟩⟩ hsize hcount id

theorem State.Inv.answerMatch {w : Nat} (hp : s.dec.matchPort = some w) (r : Role) (a n : Nat) (ok : Bool) :
    (s.answerMatch r a n ok).Inv := by
  obtain ⟨hscan, hcap, x, -, hx, -, -⟩ := h.ports.of_matchPort hp
  obtain ⟨-, -, -, hzero⟩ := h.ports
  obtain ⟨-, -, -, -, -, -, hsize⟩ := h.sized
  obtain ⟨-, hcount, -⟩ := h.capture
  refine State.Inv.useAnswer
    (h.withDec (d := { s.dec with matchPort := none, queries := s.dec.queries ++ [.matchDur r a n ok] })
      h.range ⟨fun hd => ?_, .inl hcap, .inl rfl, hzero⟩ hsize hcount id)
    ok hcap rfl (Option.isSome_iff_exists.mpr ⟨x, hx⟩)
  exact absurd (hscan.symm.trans hd) (by decide)

/-- What CAPREAD answers is a duration of the build (R26). -/
theorem State.Inv.readEntry_lt {i : CapIdx} {d : Nat} (hr : s.readEntry i = some d) : d < 2 ^ s.build.durW := by
  obtain ⟨-, hcells, -⟩ := h.sized
  obtain ⟨-, rfl⟩ | ⟨-, -, rfl⟩ := State.readEntry_some hr
  · exact Nat.mod_lt _ (Nat.two_pow_pos _)
  · exact Memory.read_lt hcells _

theorem State.Inv.answerRead {i : CapIdx} {d : Nat} (hp : s.dec.capPort = some i) (hr : s.readEntry i = some d) :
    (s.answerRead i d).Inv := by
  obtain ⟨hscan, -, hmatch, -⟩ := h.ports.of_capPort hp
  obtain ⟨-, -, -, hzero⟩ := h.ports
  obtain ⟨-, hcount, -⟩ := h.capture
  refine State.Inv.withDraws
    (h.withDec (d := { s.dec with capPort := none, entry := some d, queries := s.dec.queries ++ [.capRead i d] })
      h.range ⟨fun hd => ?_, .inl rfl, .inl hmatch, fun hz => ⟨(hzero hz).1, rfl⟩⟩ (h.readEntry_lt hr) hcount id) _
  exact absurd (hscan.symm.trans hd) (by decide)

theorem State.Inv.checkLength (hs : s.dec.state = .len) : s.checkLength.Inv := by
  obtain ⟨hcap, hmatch, -, -⟩ := h.ports.fresh (by rw [hs]; rfl)
  obtain ⟨-, heq⟩ | ⟨hn, heq⟩ := s.checkLength_cases <;> rw [heq]
  · exact (h.withDraws _).raiseNoMatch hcap hmatch nofun
  · refine State.Inv.withDraws
      (h.withDec (d := { s.dec with state := .hdr, idx := 1, i := 0, acc := 0, entry := none, zeroTest := false })
        ⟨fun _ => by simp, nofun, nofun⟩ (Decoder.portsOk_of_fresh ⟨hcap, hmatch, rfl, rfl⟩) (Nat.two_pow_pos _)
        (fun _ hlow => ?_) fun _ => by simp [hs]) _
    rw [State.sampledCount, hlow] at hn
    exact hn

theorem State.Inv.advanceScan (hscan : s.dec.state.scanning = true) : s.advanceScan.Inv := by
  obtain ⟨-, -, -, hzero⟩ := h.ports
  obtain ⟨-, -, -, -, -, -, hsize⟩ := h.sized
  obtain ⟨-, hcount, -⟩ := h.capture
  have hnot : s.dec.state.scanning ≠ false := by simp [hscan]
  obtain ⟨-, heq⟩ | ⟨-, hmatch, hx, heq⟩ | ⟨x, r, hcap, -, hx, hr, heq⟩ | ⟨x, hcap, hmatch, -, hr, heq⟩ :=
    s.advanceScan_cases <;> rw [heq]
  · exact h
  · exact h.withDec h.range ⟨fun hd => absurd hd hnot, .inr ⟨rfl, hmatch, hx⟩, .inl hmatch, hzero⟩ hsize hcount id
  · refine h.withDec h.range ⟨fun hd => absurd hd hnot, .inl hcap, .inr ?_, hzero⟩ hsize hcount id
    rw [hx]
    exact (congrArg (Option.map (MatchReq.word s.build)) hr).symm
  · exact h.markOk hcap hmatch (Decoder.matchReq_none (DecState.two_le_code hscan) hr).1

theorem State.Inv.moveDec : s.moveDec.Inv := by
  obtain ⟨-, heq⟩ | ⟨hs, heq⟩ | ⟨hs, heq⟩ := s.moveDec_cases <;> rw [heq]
  · exact h
  · exact h.checkLength hs
  · exact h.advanceScan hs

theorem State.Inv.acceptDecode (hs : s.dec.state = .idle) : s.acceptDecode.Inv := by
  obtain ⟨hcap, hmatch, hentry, hzero⟩ := h.ports.fresh (by rw [hs]; rfl)
  obtain ⟨hwf, -, -⟩ := h.capture
  exact ⟨h.sized, h.enc, Decoder.inRange_of_not_scanning rfl,
    Decoder.portsOk_of_fresh ⟨hcap, hmatch, hentry, hzero⟩, h.res, hwf, nofun, fun _ => Nat.zero_le _⟩

theorem State.Inv.capWrite (i d : Nat) : (s.capWrite i d).Inv := by
  obtain ⟨hlegal, hcells, hcount, htag, hcarrier, hwire, hentry⟩ := h.sized
  obtain ⟨hwf, hread, hlow⟩ := h.capture
  exact ⟨⟨hlegal, Memory.write_lt i hcells (Nat.mod_lt _ (Nat.two_pow_pos _)), hcount, htag, hcarrier, hwire, hentry⟩,
    h.enc, h.range, h.ports, h.res, Memory.wf_write _ i _ hwf, hread, hlow⟩

/-- A count set under a DECODE is marked, so that the invariant asks nothing of it (R51, R178). -/
theorem State.Inv.capCount (n : Nat) : (s.capCount n).Inv := by
  obtain ⟨hlegal, hcells, -, htag, hcarrier, hwire, hentry⟩ := h.sized
  obtain ⟨hwf, -, -⟩ := h.capture
  refine ⟨⟨hlegal, hcells, Nat.mod_lt _ (Nat.two_pow_pos _), htag, hcarrier, hwire, hentry⟩, h.enc, h.range, h.ports,
    h.res, hwf, fun hscan hlow => ?_, fun hbusy => ?_⟩
  · have hbusy : s.decBusy = true := State.decBusy_eq_true.mpr fun hidle => by
      rw [State.capCount_dec, hidle] at hscan; cases hscan
    simp [hbusy] at hlow
  · have hbusy' : s.decBusy = true := hbusy
    simp [hbusy']

theorem State.Inv.blockReset : s.blockReset.Inv := by
  obtain ⟨hlegal, hcells, hcount, -, hcarrier, hwire, -⟩ := h.sized
  obtain ⟨hwf, -, -⟩ := h.capture
  exact ⟨⟨hlegal, hcells, hcount, Nat.two_pow_pos _, hcarrier, hwire, Nat.two_pow_pos _⟩,
    Encoder.ok_reset _ _, Decoder.inRange_of_not_scanning rfl,
    Decoder.portsOk_of_fresh ⟨rfl, rfl, rfl, rfl⟩, ⟨nofun, nofun, nofun⟩, hwf, nofun, nofun⟩

theorem State.Inv.moves {a : Act} {t : State} (hm : s.Moves a t) : t.Inv := by
  cases hm with
  | noWord => exact h
  | pending => exact h
  | encode p n hs hn => exact h.acceptEncode p hs hn
  | decode hs => exact h.acceptDecode hs
  | issue => exact h.issue
  | command c hp hw => exact h.runCommand hw
  | dec => exact h.moveDec
  | read i d hp hr => exact h.answerRead hp hr
  | answer r a n hp hw => exact h.answerMatch hp r a n _
  | present w => exact h.withHostPort _
  | withdraw => exact h.withHostPort _
  | capWrite i d => exact h.capWrite i d
  | capCount n => exact h.capCount n
  | reset => exact h.blockReset

end

/-- Settles O47: a step stands still or makes a move, and every move keeps the invariant. -/
theorem stepKeepsInvariant : Obligations.StepKeepsInvariant := by
  intro s t h hstep
  obtain rfl | ⟨a, rest, -, hmove⟩ := step_cases hstep
  · exact h
  · exact (h.withScript rest).moves hmove

/-- Settles O46: every register has its reset value, and the buffer is empty. -/
theorem resetMeetsInvariant : Obligations.ResetMeetsInvariant := by
  intro b hb
  have hpow : ∀ n, 0 < 2 ^ n := Nat.two_pow_pos
  exact ⟨⟨hb, nofun, hpow _, hpow _, hpow _, nofun, hpow _⟩, Encoder.ok_reset _ _,
    Decoder.inRange_of_not_scanning rfl, Decoder.portsOk_of_fresh ⟨rfl, rfl, rfl, rfl⟩, ⟨nofun, nofun, nofun⟩,
    rfl, nofun, nofun⟩

/-- Settles O49: a CAPREAD outstanding is of `DEC_IDX`, which the ranges bound. -/
theorem onlyEntriesOneTo228AreRead : Obligations.OnlyEntriesOneTo228AreRead := by
  intro s i h hp
  obtain ⟨hscan, rfl, -, -⟩ := h.ports.of_capPort hp
  obtain ⟨hlo, hhi⟩ := h.range.idx_bounds hscan
  refine ⟨hlo, hhi, State.decBusy_eq_true.mpr fun hidle => ?_, rfl⟩
  rw [hidle] at hscan; cases hscan

end Sys2Proof.Machine

/-! Progress: from a state that meets the invariant every port word has its meaning, but for an ENCODE of undefined
width (R46, R93, R154). -/

namespace Sys2Proof.Machine

open Sys2Proof

theorem exec_decode_next (s : State) : ∃ t, exec .decode s = .next t := by
  by_cases hs : s.dec.state = .idle
  · exact ⟨s.acceptDecode, exec_decode_accepted hs⟩
  · exact ⟨s, exec_decode_busy hs⟩

theorem exec_encode_cases (p : Payload) (n : BitNo) (s : State) :
    (∃ t, exec (.encode p n) s = .next t)
      ∨ (112 < n.toNat ∧ exec (.encode p n) s = .refused (.encodeWidthUndefined n)) := by
  by_cases hs : s.enc.phase = .idle
  · by_cases hn : n.toNat ≤ 112
    · exact .inl ⟨_, exec_encode_accepted hs hn⟩
    · exact .inr ⟨by omega, exec_encode_refused hs (by omega)⟩
  · exact .inl ⟨_, exec_encode_busy hs⟩

theorem runAct_capture {s : State} {i : CapIdx} {d : Nat} (hp : s.dec.capPort = some i)
    (hr : s.readEntry i = some d) : runAct .capture s = .next (s.answerRead i d) := by
  rw [runAct_word (w := .capture i) (i := .capRead i) (by simp [State.fetch, hp]) rfl, exec_capRead hr]

theorem runAct_matcher {s : State} {r : Role} {a n : Nat} (hp : s.dec.matchPort = some (matchWordOf s.build r a n))
    (hw : (Instr.matchDur r a n).wellFormed s.build = true) :
    runAct .matcher s = .next (s.answerMatch r a n (matchTol r a n)) := by
  rw [runAct_word (w := .matcher (matchWordOf s.build r a n)) (by simp [State.fetch, hp]) (decode_matchWordOf hw)]
  rfl

section
variable {s : State} (h : s.Inv)
include h

/-- The command outstanding is one that the build can send. -/
theorem State.Inv.emitter_word {w : Nat} (hp : s.enc.port = some w) :
    ∃ c : EmitCmd, w = c.word s.build ∧ c.toInstr.wellFormed s.build = true := by
  obtain ⟨-, -, -, hport, -⟩ := h.enc
  obtain ⟨hlegal, -⟩ := h.sized
  obtain ⟨c, hc, hw⟩ := Option.map_eq_some_iff.mp ((hport.resolve_left (by simp [hp])).symm.trans hp)
  exact ⟨c, hw.symm, Encoder.command_wellFormed hlegal hc⟩

/-- The query outstanding is one that the build can send. -/
theorem State.Inv.matcher_word {w : Nat} (hp : s.dec.matchPort = some w) :
    ∃ r a n, w = matchWordOf s.build r a n ∧ (Instr.matchDur r a n).wellFormed s.build = true := by
  obtain ⟨-, -, x, r, hx, hr, rfl⟩ := h.ports.of_matchPort hp
  obtain ⟨hlegal, -, -, -, -, -, hsize⟩ := h.sized
  have hfit : s.build.durFits x = true := decide_eq_true (by simpa [hx] using hsize)
  exact ⟨_, _, _, rfl, Decoder.matchReq_wellFormed hlegal hfit hr⟩

/-- The entry asked for is present, or it is free because the count was changed under the DECODE (R46, R51). -/
theorem State.Inv.readEntry_of_capPort {i : CapIdx} (hp : s.dec.capPort = some i) : ∃ d, s.readEntry i = some d := by
  obtain ⟨hscan, rfl, -, -⟩ := h.ports.of_capPort hp
  obtain ⟨-, hhi⟩ := h.range.idx_bounds hscan
  obtain ⟨-, hcount, hlow⟩ := h.capture
  by_cases ht : s.capture.touched s.dec.idx = true
  · exact ⟨_, State.readEntry_touched ht⟩
  · have hpresent : s.dec.idx.toNat < s.capture.count := by
      cases hl : s.capture.countLow with
      | none => rw [hcount hscan hl]; omega
      | some low =>
        have hbusy : s.decBusy = true := State.decBusy_eq_true.mpr fun hidle => by rw [hidle] at hscan; cases hscan
        have hle := hlow hbusy
        simp [Capture.touched, hl] at ht hle
        omega
    exact ⟨_, State.readEntry_present (Bool.eq_false_iff.mpr ht) hpresent⟩

/-- Every move answers a next state, but for an ENCODE of width above 112 that is looked at. -/
theorem State.Inv.runAct_cases (a : Act) : (∃ t, runAct a s = .next t)
    ∨ ∃ p n, s.hostPort = some (encodeWordH p n) ∧ 112 < n.toNat
        ∧ runAct a s = .refused (.encodeWidthUndefined n) := by
  cases hf : s.fetch a with
  | none => exact .inl ⟨_, runAct_move hf⟩
  | some w =>
    cases a with
    | host =>
      obtain ⟨x, hp, rfl⟩ := Option.map_eq_some_iff.mp hf
      have hrun : runAct .host s = exec (decodeHost x) s := runAct_word hf rfl
      rw [hrun]
      obtain hd | ⟨p, n, he, hx⟩ := decodeHost_cases x
      · rw [hd]; exact .inl (exec_decode_next s)
      · rw [he]
        exact (exec_encode_cases p n s).imp id fun ⟨hn, hr⟩ => ⟨p, n, hx ▸ hp, hn, hr⟩
    | emitter =>
      obtain ⟨x, hp, rfl⟩ := Option.map_eq_some_iff.mp hf
      obtain ⟨c, rfl, hw⟩ := h.emitter_word hp
      exact .inl ⟨_, runAct_emitter hp hw⟩
    | capture =>
      obtain ⟨i, hp, rfl⟩ := Option.map_eq_some_iff.mp hf
      obtain ⟨d, hr⟩ := h.readEntry_of_capPort hp
      exact .inl ⟨_, runAct_capture hp hr⟩
    | matcher =>
      obtain ⟨x, hp, rfl⟩ := Option.map_eq_some_iff.mp hf
      obtain ⟨r, a, n, rfl, hw⟩ := h.matcher_word hp
      exact .inl ⟨_, runAct_matcher hp hw⟩
    | _ => exact absurd hf (by simp [State.fetch])

end

/-- Settles O48: every move answers a next state or refuses the ENCODE on the port. -/
theorem invariantExcludesFaults : Obligations.InvariantExcludesFaults := by
  intro s h
  have hstep : (∃ t, step s = .next t) ∨ ∃ p n, s.hostPort = some (encodeWordH p n) ∧ 112 < n.toNat
      ∧ step s = .refused (.encodeWidthUndefined n) := by
    cases hs : s.script with
    | nil => exact .inl ⟨s, by simp [step, hs]⟩
    | cons a rest => rw [step_cons hs]; exact (h.withScript rest).runAct_cases a
  obtain ⟨t, ht⟩ | ⟨p, n, hp, hn, ht⟩ := hstep
  · exact ⟨fun f hf => (nomatch ht.symm.trans hf), fun r hr => (nomatch ht.symm.trans hr)⟩
  · refine ⟨fun f hf => (nomatch ht.symm.trans hf), fun r hr => ?_⟩
    cases ht.symm.trans hr
    exact ⟨_, p, n, hp, congrArg _ (decodeHost_encodeWordH p n), hn, rfl⟩

end Sys2Proof.Machine

/-! The emitter trace: what `ENC` has issued and what it owes (R89), the arrows of `ENC_PHASE` (R96), and the commands
that are ever issued (R65). -/

namespace Sys2Proof.Machine

open Sys2Proof

/-! What is left to do. -/

/-- The cells from the highest bit down: cell 0 carries bit `n` of a payload of `n + 1` bits (R44). -/
theorem cellCmds_succ (p : Payload) (n : Nat) : cellCmds p (n + 1) = bitCmds (p.getLsbD n) ++ cellCmds p n := by
  have hshift : ∀ c ∈ List.range n, bitCmds (p.getLsbD (n + 1 - 1 - (c + 1))) = bitCmds (p.getLsbD (n - 1 - c)) :=
    fun c _ => by rw [show n + 1 - 1 - (c + 1) = n - 1 - c by omega]
  rw [cellCmds, List.range_succ_eq_map, List.flatMap_cons, List.flatMap_map]
  exact congrArg (bitCmds (p.getLsbD n) ++ ·) (List.flatMap_congr hshift)

/-- The cells left to send, by the register `ENC_CNT`. -/
theorem cellCmds_toNat {p : Payload} {n : BitNo} (h : 1 ≤ n.toNat) :
    cellCmds p n.toNat = bitCmds (p.getLsbD (n - 1).toNat) ++ cellCmds p (n - 1).toNat := by
  rw [← cellCmds_succ, BitNo.toNat_pred h, Nat.sub_add_cancel h]

/-- At the loop test the cells that `ENC_CNT` counts and the trailer are left (R84, R86). -/
theorem Encoder.toDo_cellPhase {e : Encoder} (h : e.phase = cellPhase e.cnt) :
    e.toDo = cellCmds e.data e.cnt.toNat ++ trailerCmds := by
  by_cases hn : e.cnt = 0
  · rw [hn] at h
    rw [Encoder.toDo, h, hn]; rfl
  · rw [cellPhase, if_neg hn] at h
    rw [Encoder.toDo, h]

/-- The command of the phase is the first one left to do, and its completion leaves the rest (R82 to R88). -/
theorem Encoder.toDo_eq_cons {e : Encoder} {c : EmitCmd} (h : e.phase.CountOk e.cnt) (hc : e.command = some c) :
    e.toDo = c :: e.complete.toDo := by
  obtain ⟨phase, data, cnt, port, trace⟩ := e
  cases phase with
  | idle => cases hc
  | hs2 => cases hc; rw [Encoder.toDo_cellPhase (e := Encoder.complete _) rfl]; rfl
  | bitMark =>
    cases hc
    change cellCmds data cnt.toNat ++ trailerCmds = _ :: ((cellCmds data cnt.toNat).drop 1 ++ trailerCmds)
    rw [cellCmds_toNat (h.cell rfl)]; rfl
  | bitSpace =>
    cases hc
    rw [Encoder.toDo_cellPhase (e := Encoder.complete _) rfl]
    simp only [Encoder.toDo, cellCmds_toNat (h.cell rfl)]; rfl
  | _ => cases hc; rfl

/-- Issue moves the command of the phase from what is owed to what is issued (R135). -/
theorem Encoder.trace_owed_issue {e : Encoder} (h : e.phase.CountOk e.cnt) (b : Build) :
    (e.issue b).trace ++ (e.issue b).owed = e.trace ++ e.owed := by
  obtain heq | ⟨c, hp, hc, heq⟩ := e.issue_cases b <;> rw [heq]
  have hcons : ({ e with port := some (c.word b), trace := e.trace ++ [c] } : Encoder).toDo = c :: e.complete.toDo :=
    Encoder.toDo_eq_cons h hc
  simp [Encoder.owed, hp, hcons, Encoder.toDo_eq_cons h hc]

/-- Completion leaves what is issued and what is owed. -/
theorem Encoder.owed_complete {e : Encoder} {c : EmitCmd} (h : e.phase.CountOk e.cnt) (hc : e.command = some c)
    (hp : e.port.isSome = true) : e.complete.owed = e.owed := by
  simp [Encoder.owed, hp, Encoder.toDo_eq_cons h hc]

/-! What a move does to `ENC`. -/

theorem State.Moves.enc_cases {s t : State} {a : Act} (h : s.Moves a t) :
    t.enc = s.enc
      ∨ (a = .host ∧ s.enc.phase = .idle ∧ ∃ p n, n.toNat ≤ 112 ∧ t = s.acceptEncode p n)
      ∨ (a = .enc ∧ t.enc = s.enc.issue s.build)
      ∨ (a = .emitter ∧ s.enc.port.isSome = true ∧ t.enc = s.enc.complete)
      ∨ (a = .reset ∧ t.enc = { Encoder.reset with trace := s.enc.trace }) := by
  cases h with
  | encode p n hs hn => exact .inr (.inl ⟨rfl, hs, p, n, hn, rfl⟩)
  | issue => exact .inr (.inr (.inl ⟨rfl, rfl⟩))
  | command c hp => exact .inr (.inr (.inr (.inl ⟨rfl, by rw [hp]; rfl, rfl⟩)))
  | reset => exact .inr (.inr (.inr (.inr ⟨rfl, rfl⟩)))
  | dec => exact .inl (State.onlyDecoder_moveDec s).enc
  | answer => exact .inl (State.onlyDecoder_answerMatch _ _ _ _ s).enc
  | _ => exact .inl rfl

/-- Settles O21: issue moves a command from owed to issued, completion changes neither, and no other move touches
`ENC`. -/
theorem encoderConservesItsTrace : Obligations.EncoderConservesItsTrace := by
  intro s t a rest h hs hreset hbusy hstep
  have hcount := h.enc.countOk
  obtain ⟨c, hc⟩ := Encoder.command_of_busy hbusy
  obtain heq | ⟨-, hidle, -⟩ | ⟨-, heq⟩ | ⟨-, hp, heq⟩ | ⟨ha, -⟩ := (moves_of_step hs hstep).enc_cases
  · rw [heq]; rfl
  · exact absurd hidle hbusy
  · rw [heq]; exact Encoder.trace_owed_issue hcount s.build
  · rw [heq]; exact congrArg (s.enc.trace ++ ·) (Encoder.owed_complete hcount hc hp)
  · exact absurd ha hreset

theorem Encoder.command_idle {e : Encoder} (h : e.phase = .idle) : e.command = none := by
  simp [Encoder.command, h]

/-- A move leaves the trace, or appends the command of the phase to it (R91, R135). -/
theorem State.Moves.trace_cases {s t : State} {a : Act} (h : s.Moves a t) :
    t.enc.trace = s.enc.trace ∨ ∃ c, s.enc.command = some c ∧ t.enc.trace = s.enc.trace ++ [c] := by
  obtain heq | ⟨-, -, p, n, -, rfl⟩ | ⟨-, heq⟩ | ⟨-, -, heq⟩ | ⟨-, heq⟩ := h.enc_cases
  · exact .inl (congrArg Encoder.trace heq)
  · exact .inl rfl
  · obtain hsame | ⟨c, -, hc, hissue⟩ := s.enc.issue_cases s.build
    · exact .inl (congrArg Encoder.trace (heq.trans hsame))
    · exact .inr ⟨c, hc, congrArg Encoder.trace (heq.trans hissue)⟩
  · exact .inl (congrArg Encoder.trace heq :)
  · exact .inl (congrArg Encoder.trace heq :)

/-- Settles O22: an idle encoder has an empty port and nothing to do; acceptance owes the whole trace. -/
theorem acceptedEncodeOwesItsTrace : Obligations.AcceptedEncodeOwesItsTrace := by
  refine ⟨fun p n s h hs hn => ?_, fun s t hs hstep => ?_⟩
  · obtain ⟨-, -, -, -, hidle⟩ := h.enc
    have hport := hidle hs
    refine ⟨by simp [Encoder.owed, Encoder.toDo, hport, hs], _, exec_encode_accepted hs hn, ?_⟩
    simp [Encoder.owed, Encoder.toDo, hport, traceOf]
  · obtain rfl | ⟨a, rest, -, hmove⟩ := step_cases hstep
    · rfl
    · obtain heq | ⟨c, hc, -⟩ := hmove.trace_cases
      · exact heq
      · exact absurd ((Encoder.command_idle hs).symm.trans hc) (by simp)

/-- Settles O20: the phase is written by acceptance and by completion alone. -/
theorem encoderTransitionRelation : Obligations.EncoderTransitionRelation := by
  intro s t a rest hs hreset hstep hne
  obtain heq | ⟨rfl, hidle, p, n, hn, rfl⟩ | ⟨-, heq⟩ | ⟨rfl, hp, heq⟩ | ⟨ha, -⟩ := (moves_of_step hs hstep).enc_cases
  · exact absurd (congrArg Encoder.phase heq) hne
  · exact .inl ⟨hidle, rfl, rfl, hn⟩
  · refine absurd ?_ hne
    rw [heq]
    obtain hsame | ⟨c, -, -, hissue⟩ := s.enc.issue_cases s.build
    · exact (congrArg Encoder.phase hsame :)
    · exact (congrArg Encoder.phase hissue :)
  · refine .inr ⟨rfl, hp, ?_⟩
    have hphase : t.enc.phase = s.enc.phase.next s.enc.cnt := congrArg Encoder.phase heq
    rw [hphase] at hne ⊢
    cases hsp : s.enc.phase <;> simp [hsp, EncPhase.next, cellPhase] at hne ⊢
  · exact absurd ha hreset

theorem Encoder.command_mem_issuedCmds {e : Encoder} {c : EmitCmd} (h : e.command = some c) : c ∈ issuedCmds := by
  cases hp : e.phase <;> simp only [Encoder.command, hp, Option.some.injEq, reduceCtorEq] at h <;> subst h
  case bitSpace => cases e.selectedBit <;> decide
  all_goals decide

theorem word_mem_issuedWords {c : EmitCmd} (h : c ∈ issuedCmds) : c.word .default ∈ issuedWords := by
  revert c; decide

/-- Settles O25: a step appends nothing or the command of the phase. -/
theorem onlyListedWordsAreIssued : Obligations.OnlyListedWordsAreIssued := by
  intro s t hstep
  have htrace : t.enc.trace = s.enc.trace ∨ ∃ c, s.enc.command = some c ∧ t.enc.trace = s.enc.trace ++ [c] := by
    obtain rfl | ⟨a, rest, -, hmove⟩ := step_cases hstep
    · exact .inl rfl
    · exact hmove.trace_cases
  obtain heq | ⟨c, hc, heq⟩ := htrace
  · exact ⟨[], by simp [heq], by simp, by simp, by simp⟩
  · have hmem := Encoder.command_mem_issuedCmds hc
    exact ⟨[c], heq, le_rfl, by simpa using hmem, fun hb => by simpa [hb] using word_mem_issuedWords hmem⟩

/-- Settles O12: acceptance writes `ENC_DATA` and `ENC_CNT`, and the test before it reads neither. -/
theorem encodeForgetsOldScratch : Obligations.EncodeForgetsOldScratch := by
  intro p q n c s hs
  have hs' : ({ s with enc := { s.enc with data := q, cnt := c } } : State).enc.phase = .idle := hs
  by_cases hn : n.toNat ≤ 112
  · rw [exec_encode_accepted hs hn, exec_encode_accepted hs' hn]; rfl
  · rw [exec_encode_refused hs (by omega), exec_encode_refused hs' (by omega)]

/-- Settles O14: issue writes the port and the trace alone, and with a command outstanding nothing. -/
theorem outstandingCommandHoldsPhase : Obligations.OutstandingCommandHoldsPhase := by
  refine ⟨fun s rest hs hbusy hp => ?_, fun s rest hs hp => ?_⟩
  · obtain ⟨c, hc⟩ := Encoder.command_of_busy hbusy
    have hstep : step s = .next { s with
        script := rest
        enc := { s.enc with port := some (c.word s.build), trace := s.enc.trace ++ [c] } } := by
      rw [← Encoder.issue_eq hp hc, step_cons hs, runAct_move rfl]; rfl
    exact ⟨_, hstep, rfl, rfl, rfl, State.encBusy_eq_true.mpr hbusy, rfl, rfl,
      ⟨rfl, rfl, rfl, rfl, rfl, ⟨fun _ => rfl, rfl⟩, rfl, rfl⟩⟩
  · obtain ⟨w, hw⟩ := Option.isSome_iff_exists.mp hp
    rw [step_cons hs, runAct_move rfl]
    simp [State.move, Encoder.issue, hw]

/-! The run of an ENCODE. -/

/-- What a command puts on the wire (R131 to R134). -/
def EmitCmd.sends : EmitCmd → List Interval
  | .setCarrier _ => []
  | .mark d => [⟨.mark, d⟩]
  | .space d => if d = 0 then [] else [⟨.space, d⟩]

theorem Emitter.run_wire (m : Emitter) (c : EmitCmd) : (m.run c).wire = m.wire ++ EmitCmd.sends c := by
  cases c with
  | setCarrier k => exact (List.append_nil _).symm
  | mark d => rfl
  | space d => by_cases hd : d = 0 <;> simp [Emitter.run, EmitCmd.sends, hd]

theorem Emitter.foldl_run_wire (l : List EmitCmd) (m : Emitter) :
    (l.foldl Emitter.run m).wire = m.wire ++ l.flatMap EmitCmd.sends := by
  induction l generalizing m with
  | nil => simp
  | cons c l ih => rw [List.foldl_cons, ih, Emitter.run_wire, List.flatMap_cons, List.append_assoc]

/-- MARK and SPACE leave the carrier (R132, R133). -/
theorem Emitter.foldl_run_carrier {l : List EmitCmd} (h : ∀ c ∈ l, (EmitCmd.interval c).isSome = true) (m : Emitter) :
    (l.foldl Emitter.run m).carrier = m.carrier := by
  induction l generalizing m with
  | nil => rfl
  | cons c l ih =>
    obtain ⟨hc, hl⟩ := List.forall_mem_cons.mp h
    rw [List.foldl_cons, ih hl]
    cases c with
    | setCarrier k => cases hc
    | mark d => rfl
    | space d => rfl

theorem bitCmds_sends (b : Bool) :
    (bitCmds b).flatMap EmitCmd.sends = [⟨.mark, 600⟩, ⟨.space, if b then 1690 else 600⟩] := by
  cases b <;> rfl

/-- The trace puts the frame on the wire (R67, R89). -/
theorem traceOf_sends (p : Payload) (n : Nat) : (traceOf p n).flatMap EmitCmd.sends = frameOf p n := by
  simp [traceOf, frameOf, headerCmds, cellCmds, trailerCmds, List.flatMap_assoc, bitCmds_sends, EmitCmd.sends]

theorem traceOf_eq_concat (p : Payload) (n : Nat) :
    traceOf p n = (.setCarrier 38 :: (headerCmds ++ (cellCmds p n ++ [.mark 600]))) ++ [.space 0] := by
  simp [traceOf, trailerCmds]

theorem traceOf_run_on (p : Payload) (n : Nat) (m : Emitter) : ((traceOf p n).foldl Emitter.run m).on = false := by
  rw [traceOf_eq_concat, List.foldl_append]; rfl

theorem traceOf_run_carrier (p : Payload) (n : Nat) (m : Emitter) :
    ((traceOf p n).foldl Emitter.run m).carrier = 38 := by
  rw [traceOf, List.foldl_cons, Emitter.foldl_run_carrier]
  · rfl
  · have hcells : ∀ c ∈ cellCmds p n, (EmitCmd.interval c).isSome = true := fun c hc => by
      obtain ⟨k, -, hk⟩ := List.mem_flatMap.mp hc
      rw [bitCmds, List.mem_pair] at hk
      obtain rfl | rfl := hk <;> rfl
    simp only [List.forall_mem_append]
    exact ⟨by decide, hcells, by decide⟩

theorem length_cellCmds (p : Payload) (n : Nat) : (cellCmds p n).length = 2 * n := by
  induction n with
  | zero => rfl
  | succ n ih => rw [cellCmds_succ, List.length_append, ih, bitCmds]; simp; omega

theorem length_traceOf (p : Payload) (n : Nat) : (traceOf p n).length = 2 * n + 7 := by
  simp [traceOf, headerCmds, trailerCmds, length_cellCmds]

/-- `n` times a move of `ENC` and one of EMITTER. -/
def encRounds (n : Nat) : List Act := (List.replicate n [Act.enc, Act.emitter]).flatten

/-- `ENC` has issued and completed all that it has to do. -/
def State.sent (s : State) : State :=
  { s with
    emitter := s.enc.toDo.foldl Emitter.run s.emitter
    enc := { s.enc with phase := .idle, cnt := 0, port := none, trace := s.enc.trace ++ s.enc.toDo } }

/-- `ENC` has issued the command `c` of its phase and EMITTER has completed it (R82 to R88). -/
def State.stepped (c : EmitCmd) (s : State) : State :=
  { s with emitter := s.emitter.run c, enc := { s.enc.complete with trace := s.enc.trace ++ [c] } }

theorem leads_stepped {s : State} {c : EmitCmd} (hb : s.build.legal = true) (hp : s.enc.port = none)
    (hc : s.enc.command = some c) : Leads [.enc, .emitter] s (s.stepped c) := by
  intro rest
  have hrun := run_encoderStep (s := s.withScript ([.enc, .emitter] ++ rest)) hb rfl hp hc
  rwa [State.withScript_enc, Encoder.complete_issue hp hc] at hrun

/-- One step brings `ENC` on the way to the same end. -/
theorem State.sent_stepped {s : State} {c : EmitCmd} (h : s.enc.toDo = c :: s.enc.complete.toDo) :
    (s.stepped c).sent = s.sent := by
  rw [State.sent, State.sent, h, List.foldl_cons, ← List.singleton_append (l := s.enc.complete.toDo),
    ← List.append_assoc]
  rfl

theorem EncPhase.next_eq_idle {p : EncPhase} {n : BitNo} (h : p.next n = .idle) : p = .idle ∨ p = .trailSpace := by
  have hcell : ∀ m, cellPhase m ≠ .idle := fun m => by rw [cellPhase]; split <;> simp
  cases p <;> simp [EncPhase.next, hcell] at h ⊢

/-- The rest of an ENCODE: a move of `ENC` and one of EMITTER for each command that is left. -/
theorem leads_sent (n : Nat) {s : State} (hb : s.build.legal = true) (hp : s.enc.port = none)
    (hcount : s.enc.phase.CountOk s.enc.cnt) (hend : s.enc.phase = .idle → s.enc.cnt = 0)
    (hn : s.enc.toDo.length = n) : Leads (encRounds n) s s.sent := by
  induction n generalizing s with
  | zero =>
    have hidle : s.enc.phase = .idle := by
      by_contra hbusy
      obtain ⟨c, hc⟩ := Encoder.command_of_busy hbusy
      simp [Encoder.toDo_eq_cons hcount hc] at hn
    have hsent : s.sent = s := by
      rw [State.sent, List.eq_nil_of_length_eq_zero hn, ← hidle, ← hend hidle, ← hp]; simp
    rw [hsent]
    exact .nil s
  | succ n ih =>
    have hbusy : s.enc.phase ≠ .idle := fun hidle => by simp [Encoder.toDo, hidle] at hn
    obtain ⟨c, hc⟩ := Encoder.command_of_busy hbusy
    have hcons := Encoder.toDo_eq_cons hcount hc
    have hend' : (s.stepped c).enc.phase = .idle → (s.stepped c).enc.cnt = 0 := fun hidle => by
      have hlast := (EncPhase.next_eq_idle hidle).resolve_left hbusy
      simp [State.stepped, hlast, hcount.trailer (.inr hlast)]
    have hrest := ih (s := s.stepped c) hb rfl hcount.next hend' (by rw [hcons] at hn; exact Nat.succ.inj hn)
    rw [State.sent_stepped hcons] at hrest
    exact (leads_stepped hb hp hc).trans hrest

/-- An idle encoder accepts a pending ENCODE of a legal width (R81). -/
theorem leads_acceptEncode {s : State} {p : Payload} {n : BitNo} (hs : s.enc.phase = .idle) (hn : n.toNat ≤ 112)
    (hp : s.hostPort = some (encodeWordH p n)) : Leads [.host] s (s.acceptEncode p n) := by
  refine leads_of_runAct fun l => ?_
  rw [runAct_word (s := s.withScript l) (w := .host (encodeWordH p n)) (by simp [State.fetch, hp])
    (congrArg _ (decodeHost_encodeWordH p n))]
  exact exec_encode_accepted (s := s.withScript l) hs hn

/-- The script of an ENCODE brings it to its end. -/
theorem run_encode {s : State} {p : Payload} {n : BitNo} (hb : s.build.legal = true) (hs : s.enc.phase = .idle)
    (hport : s.enc.port = none) (hn : n.toNat ≤ 112) (hp : s.hostPort = some (encodeWordH p n))
    (hscript : s.script = encodeScript n.toNat) :
    Host.Core.run Sys2Proof.core (4 * n.toNat + 15) s = .next ((s.acceptEncode p n).sent.withScript []) := by
  have hsent := leads_sent (2 * n.toNat + 7) (s := s.acceptEncode p n) hb hport ⟨hn, nofun, by simp⟩ nofun
    (length_traceOf p n.toNat)
  have hrun := ((leads_acceptEncode hs hn hp).trans hsent).run (rest := []) (by rw [hscript, List.append_nil]; rfl)
  rw [← hrun]
  congr 1
  simp [encRounds]
  omega

/-- Settles O23: the run ends with all that was owed issued and completed. -/
theorem encodeRunIssuesItsTrace : Obligations.EncodeRunIssuesItsTrace := by
  intro p n s hb hs hport hn hp hscript
  refine ⟨_, run_encode hb hs hport hn hp hscript, rfl, ?_, traceOf_run_on p n.toNat _, traceOf_run_carrier p n.toNat _,
    rfl, rfl, rfl, rfl, rfl, rfl, rfl, ⟨⟨fun _ => rfl, rfl⟩, rfl, rfl⟩, rfl, rfl⟩
  rw [← traceOf_sends]
  exact Emitter.foldl_run_wire (traceOf p n.toNat) s.emitter

/-- The trace has the payload bits below the width and no others (R94). -/
theorem traceOf_congr {p q : Payload} {n : Nat} (h : p.toNat % 2 ^ n = q.toNat % 2 ^ n) :
    traceOf p n = traceOf q n := by
  have hbit : ∀ i < n, p.getLsbD i = q.getLsbD i := fun i hi => by
    have := congrArg (Nat.testBit · i) h
    simpa [Nat.testBit_mod_two_pow, hi, BitVec.getLsbD] using this
  have hcells : cellCmds p n = cellCmds q n := List.flatMap_congr fun c hc => by
    rw [hbit _ (by have := List.mem_range.mp hc; omega)]
  rw [traceOf, traceOf, hcells]

/-- Settles O24: both runs issue their traces, which are the same. -/
theorem encodeIgnoresHighPayloadBits : Obligations.EncodeIgnoresHighPayloadBits := by
  intro p q n s hb hs hport hn hpq hscript
  obtain ⟨t, ht, httrace, htwire, -⟩ :=
    encodeRunIssuesItsTrace p n { s with hostPort := some (encodeWordH p n) } hb hs hport hn rfl hscript
  obtain ⟨u, hu, hutrace, huwire, -⟩ :=
    encodeRunIssuesItsTrace q n { s with hostPort := some (encodeWordH q n) } hb hs hport hn rfl hscript
  refine ⟨t, u, ht, hu, ?_, ?_⟩
  · rw [httrace, hutrace, traceOf_congr hpq]
  · rw [htwire, huwire, ← traceOf_sends, ← traceOf_sends, traceOf_congr hpq]

end Sys2Proof.Machine

/-! The arrows of `DEC_STATE` and the end of a DECODE (R101 to R109, R118, R156), and how `DEC` waits (R49). -/

namespace Sys2Proof.Machine

open Sys2Proof

/-! What an answer does, state by state. -/

theorem State.useAnswer_none {s : State} (h : s.dec.state = .idle ∨ s.dec.state = .len) (ok : Bool) :
    s.useAnswer ok = s := by
  obtain h | h := h <;> simp [State.useAnswer, h]

theorem State.useAnswer_hdr {s : State} (h : s.dec.state = .hdr) (ok : Bool) :
    s.useAnswer ok = if ok then s.headerOk else s.raiseNoMatch .header := by
  simp [State.useAnswer, h]

theorem State.useAnswer_bitm {s : State} (h : s.dec.state = .bitm) (ok : Bool) :
    s.useAnswer ok = if ok then s.markOk else s.raiseNoMatch (.bit s.dec.i) := by
  simp [State.useAnswer, h]

theorem State.useAnswer_bits_yes {s : State} (h : s.dec.state = .bits) :
    s.useAnswer true = s.takeBit (!s.dec.zeroTest) := by
  simp [State.useAnswer, h]

theorem State.useAnswer_bits_no {s : State} (h : s.dec.state = .bits) :
    s.useAnswer false = if s.dec.zeroTest then s.raiseNoMatch (.bit s.dec.i)
      else { s with dec := { s.dec with zeroTest := true } } := by
  simp [State.useAnswer, h]

@[simp] theorem State.takeBit_dec (b : Bool) (s : State) :
    (s.takeBit b).dec =
      if s.dec.i.toNat = 111 then { s.dec.consume .idle with acc := appendBit s.dec.acc b }
      else { s.dec.consume .bitm with acc := appendBit s.dec.acc b, i := s.dec.i + 1 } := by
  obtain ⟨hi, h⟩ | ⟨hi, h⟩ := s.takeBit_cases b
  · rw [h, State.finish_dec, if_pos hi]
  · rw [h, if_neg hi]

/-- An answer leaves the record of the queries and the ports. -/
theorem State.useAnswer_ports (ok : Bool) (s : State) :
    (s.useAnswer ok).dec.queries = s.dec.queries ∧ (s.useAnswer ok).dec.capPort = s.dec.capPort
      ∧ (s.useAnswer ok).dec.matchPort = s.dec.matchPort := by
  obtain ⟨-, h⟩ | ⟨-, h⟩ | ⟨-, h⟩ | ⟨-, -, h⟩ | ⟨-, -, -, h⟩ | ⟨-, -, -, h⟩ := s.useAnswer_cases ok <;> rw [h]
  · exact ⟨rfl, rfl, rfl⟩
  · split <;> simp
  · split <;> simp
  · rw [State.takeBit_dec]; split <;> exact ⟨rfl, rfl, rfl⟩
  · simp
  · exact ⟨rfl, rfl, rfl⟩

/-- An answer makes no draw over a stable buffer, nor while the DECODE goes on (log 20). -/
theorem State.useAnswer_draws {ok : Bool} {s : State}
    (hd : s.capture.broken = false ∨ (s.useAnswer ok).dec.state ≠ .idle) : (s.useAnswer ok).draws = s.draws := by
  have hraise : ∀ r, s.capture.broken = false ∨ (s.raiseNoMatch r).dec.state ≠ .idle →
      (s.raiseNoMatch r).draws = s.draws := fun r hr => by
    rw [State.raiseNoMatch_eq_failed r (hr.resolve_right (by simp))]; rfl
  obtain ⟨-, h⟩ | ⟨-, h⟩ | ⟨-, h⟩ | ⟨-, -, h⟩ | ⟨-, -, -, h⟩ | ⟨-, -, -, h⟩ := s.useAnswer_cases ok <;> rw [h] at hd ⊢
  · cases ok with
    | true => rfl
    | false => exact hraise _ hd
  · cases ok with
    | true => rfl
    | false => exact hraise _ hd
  · by_cases hi : s.dec.i.toNat = 111
    · rw [State.takeBit_last _ hi (hd.resolve_right (by simp [hi]))]; rfl
    · rw [State.takeBit_next _ hi]; rfl
  · exact hraise _ hd

theorem State.raiseNoMatch_res {s : State} (r : NoMatch) (h : s.capture.broken = false) :
    (s.raiseNoMatch r).res = { s.res with status := failureStatus r, errIdx := failureErrIdx r s.res.errIdx } := by
  rw [State.raiseNoMatch_stable r h]

/-- The answer in the header (R104). -/
theorem State.useAnswer_hdr_effect {s : State} (hs : s.dec.state = .hdr) (ok : Bool) :
    (s.useAnswer ok).dec.i = s.dec.i ∧ (s.useAnswer ok).dec.acc = s.dec.acc ∧
      if ok = true then
        (s.useAnswer ok).dec.state = (if s.dec.idx = 4 then .bitm else .hdr)
          ∧ (s.useAnswer ok).dec.idx = s.dec.idx + 1 ∧ (s.useAnswer ok).res = s.res
      else (s.useAnswer ok).dec.state = .idle ∧ (s.useAnswer ok).dec.idx = s.dec.idx
        ∧ (s.capture.broken = false → (s.useAnswer ok).res = { s.res with status := .stNoMatchHeader }) := by
  rw [State.useAnswer_hdr hs]
  cases ok with
  | true =>
    have hstate : s.headerOk.dec.state = if s.dec.idx = 4 then .bitm else .hdr := by
      simp only [State.headerOk_dec, Decoder.consume_state, Decoder.segment_eq_three]
    exact ⟨rfl, rfl, hstate, rfl, rfl⟩
  | false => exact ⟨by simp, by simp, by simp, by simp, State.raiseNoMatch_res .header⟩

/-- The answer at a bit mark (R106). -/
theorem State.useAnswer_bitm_effect {s : State} (hs : s.dec.state = .bitm) (ok : Bool) :
    (s.useAnswer ok).dec.i = s.dec.i ∧ (s.useAnswer ok).dec.acc = s.dec.acc ∧
      if ok = true then
        (s.useAnswer ok).dec.state = .bits ∧ (s.useAnswer ok).dec.idx = s.dec.idx + 1 ∧ (s.useAnswer ok).res = s.res
      else (s.useAnswer ok).dec.state = .idle ∧ (s.useAnswer ok).dec.idx = s.dec.idx
        ∧ (s.capture.broken = false →
            (s.useAnswer ok).res = { s.res with status := .stNoMatchBit, errIdx := s.dec.i }) := by
  rw [State.useAnswer_bitm hs]
  cases ok with
  | true => exact ⟨rfl, rfl, rfl, rfl, rfl⟩
  | false => exact ⟨by simp, by simp, by simp, by simp, State.raiseNoMatch_res (.bit s.dec.i)⟩

/-- A yes at a bit space: the bit goes in, and after cell 111 the DECODE ends (R107 to R109). -/
theorem State.takeBit_effect (b : Bool) (s : State) :
    (s.takeBit b).dec.idx = s.dec.idx + 1
      ∧ (s.takeBit b).dec.acc.toNat = (2 * s.dec.acc.toNat + b.toNat) % 2 ^ 112
      ∧ if s.dec.i.toNat = 111 then
          (s.takeBit b).dec.state = .idle ∧ (s.takeBit b).dec.i = s.dec.i
            ∧ (s.capture.broken = false →
                (s.takeBit b).res = ⟨.stMatch, s.res.errIdx, true, (s.takeBit b).dec.acc, 112, s.tag⟩)
        else (s.takeBit b).dec.state = .bitm ∧ (s.takeBit b).dec.i = s.dec.i + 1 ∧ (s.takeBit b).res = s.res := by
  by_cases hi : s.dec.i.toNat = 111
  · rw [State.takeBit_dec, if_pos hi, if_pos hi]
    exact ⟨rfl, appendBit_toNat _ _, rfl, rfl, fun hst => by rw [State.takeBit_last b hi hst]; rfl⟩
  · rw [State.takeBit_next b hi, if_neg hi]
    exact ⟨rfl, appendBit_toNat _ _, rfl, rfl, rfl⟩

/-- A no at a bit space: the first one leads to the second test, the second one ends the DECODE (R107). -/
theorem State.useAnswer_bits_no_effect {s : State} (hs : s.dec.state = .bits) :
    (s.useAnswer false).dec.idx = s.dec.idx ∧ (s.useAnswer false).dec.i = s.dec.i
      ∧ (s.useAnswer false).dec.acc = s.dec.acc
      ∧ if s.dec.zeroTest = true then
          (s.useAnswer false).dec.state = .idle
            ∧ (s.capture.broken = false →
                (s.useAnswer false).res = { s.res with status := .stNoMatchBit, errIdx := s.dec.i })
        else (s.useAnswer false).dec.state = .bits ∧ (s.useAnswer false).dec.zeroTest = true
          ∧ (s.useAnswer false).res = s.res := by
  rw [State.useAnswer_bits_no hs]
  cases s.dec.zeroTest with
  | true => exact ⟨by simp, by simp, by simp, by simp, State.raiseNoMatch_res (.bit s.dec.i)⟩
  | false => exact ⟨rfl, rfl, rfl, hs, rfl, rfl⟩

/-- The answer to the MATCH outstanding is recorded (R29). -/
def State.answered (r : Role) (a n : Nat) (ok : Bool) (s : State) : State :=
  { s with dec := { s.dec with matchPort := none, queries := s.dec.queries ++ [.matchDur r a n ok] } }

theorem State.answerMatch_eq (r : Role) (a n : Nat) (ok : Bool) (s : State) :
    s.answerMatch r a n ok = (s.answered r a n ok).useAnswer ok := rfl

/-- Settles O34: the answer is recorded, and each state goes on with it in its own way. -/
theorem matchAnswerDrivesTheStep : Obligations.MatchAnswerDrivesTheStep := by
  intro r a n s
  have hframe := State.onlyDecoder_answerMatch r a n (matchTol r a n) s
  obtain ⟨hqueries, hcap, hmatch⟩ := (s.answered r a n (matchTol r a n)).useAnswer_ports (matchTol r a n)
  refine ⟨s.answerMatch r a n (matchTol r a n), rfl, hqueries, hmatch, hframe.sameOutsideDecoder, hframe.script, hcap,
    State.useAnswer_draws (s := s.answered r a n (matchTol r a n)), fun hs => ?none,
    fun hs => State.useAnswer_hdr_effect (s := s.answered r a n (matchTol r a n)) hs _,
    fun hs => State.useAnswer_bitm_effect (s := s.answered r a n (matchTol r a n)) hs _, fun hs => ?bits⟩
  case none =>
    rw [State.answerMatch_eq, State.useAnswer_none (s := s.answered r a n _) hs]
    exact ⟨rfl, rfl, rfl, rfl, rfl⟩
  case bits =>
    cases hok : matchTol r a n with
    | true =>
      have hbit : (!s.dec.zeroTest).toNat = if s.dec.zeroTest = true then 0 else 1 := by cases s.dec.zeroTest <;> rfl
      rw [State.answerMatch_eq, State.useAnswer_bits_yes (s := s.answered r a n true) hs, ← hbit]
      exact State.takeBit_effect (!s.dec.zeroTest) (s.answered r a n true)
    | false => exact State.useAnswer_bits_no_effect (s := s.answered r a n false) hs

end Sys2Proof.Machine

/-! The arrows of `DEC_STATE` (R118) and the one end of a DECODE (R109, R156), read off the moves of `DEC`. -/

namespace Sys2Proof.Machine

open Sys2Proof

/-- In `s` the DECODE ends with the failure `f`, or with the payload `v` if there is none; `d` is what it leaves in
`DEC` (R102, R104, R106, R107, R109). -/
def State.EndsBy (s : State) (d : Decoder) (f : Option NoMatch) (v : Payload) : Prop :=
  (s.dec.state = .bits ∧ s.dec.i.toNat = 111 ∧ f = none ∧ v = d.acc)
    ∨ ((d.acc = s.dec.acc ∧ d.idx = s.dec.idx ∧ d.i = s.dec.i)
      ∧ ((s.dec.state = .len ∧ s.sampledCount ≠ 230 ∧ f = some .length)
        ∨ (s.dec.state = .hdr ∧ f = some .header)
        ∨ ((s.dec.state = .bitm ∨ s.dec.state = .bits) ∧ f = some (.bit s.dec.i))))

/-- From `s` to `t` the DECODE ends: `DEC` goes to `D_IDLE` and then the outcome is written. -/
def State.Ends (s t : State) : Prop :=
  ∃ (u : State) (f : Option NoMatch) (v : Payload), t = u.finish f v ∧ u.dec.state = .idle ∧ u.build = s.build
    ∧ u.res = s.res ∧ u.capture = s.capture ∧ s.draws ≤ u.draws ∧ s.EndsBy u.dec f v

/-- From `s` to `t` the DECODE goes on to another state of `DEC` (R103, R104, R106, R108). -/
def State.GoesOn (s t : State) : Prop :=
  t.res = s.res
    ∧ ((s.dec.state = .len ∧ t.dec.state = .hdr ∧ s.sampledCount = 230)
      ∨ (s.dec.state = .hdr ∧ t.dec.state = .bitm ∧ s.dec.idx = 4)
      ∨ (s.dec.state = .bitm ∧ t.dec.state = .bits)
      ∨ (s.dec.state = .bits ∧ t.dec.state = .bitm ∧ s.dec.i.toNat ≠ 111))

/-- From `s` to `t` the state of `DEC` and the results stay. -/
def State.Stays (s t : State) : Prop := t.dec.state = s.dec.state ∧ t.res = s.res

theorem State.ends_raiseNoMatch {s : State} {r : NoMatch}
    (h : (s.dec.state = .hdr ∧ r = .header) ∨ ((s.dec.state = .bitm ∨ s.dec.state = .bits) ∧ r = .bit s.dec.i)) :
    s.Ends (s.raiseNoMatch r) :=
  ⟨{ s with dec := { s.dec with state := .idle, entry := none, zeroTest := false } }, some r, s.dec.acc, rfl, rfl, rfl,
    rfl, rfl, le_rfl, .inr ⟨⟨rfl, rfl, rfl⟩, .inr (h.imp (And.imp id (congrArg some)) (And.imp id (congrArg some)))⟩⟩

theorem State.arrow_takeBit {s : State} (hs : s.dec.state = .bits) (b : Bool) :
    s.GoesOn (s.takeBit b) ∨ s.Ends (s.takeBit b) := by
  obtain ⟨hi, h⟩ | ⟨hi, h⟩ := s.takeBit_cases b <;> rw [h]
  · exact .inr ⟨_, _, _, rfl, rfl, rfl, rfl, rfl, le_rfl, .inl ⟨hs, hi, rfl, rfl⟩⟩
  · exact .inl ⟨rfl, .inr (.inr (.inr ⟨hs, rfl, hi⟩))⟩

theorem State.arrow_markOk {s : State} (hs : s.dec.state = .bitm) : s.GoesOn s.markOk :=
  ⟨rfl, .inr (.inr (.inl ⟨hs, rfl⟩))⟩

theorem State.arrow_headerOk {s : State} (hs : s.dec.state = .hdr) : s.Stays s.headerOk ∨ s.GoesOn s.headerOk := by
  by_cases hlast : s.dec.idx = 4
  · have hstate : s.headerOk.dec.state = .bitm := if_pos (Decoder.segment_eq_three.mpr hlast)
    exact .inr ⟨rfl, .inr (.inl ⟨hs, hstate, hlast⟩)⟩
  · have hstate : s.headerOk.dec.state = .hdr := if_neg fun h3 => hlast (Decoder.segment_eq_three.mp h3)
    exact .inl ⟨hstate.trans hs.symm, rfl⟩

theorem State.arrow_useAnswer (ok : Bool) (s : State) :
    s.Stays (s.useAnswer ok) ∨ s.GoesOn (s.useAnswer ok) ∨ s.Ends (s.useAnswer ok) := by
  obtain ⟨-, h⟩ | ⟨hs, h⟩ | ⟨hs, h⟩ | ⟨hs, -, h⟩ | ⟨hs, -, -, h⟩ | ⟨hs, -, -, h⟩ := s.useAnswer_cases ok <;> rw [h]
  · exact .inl ⟨rfl, rfl⟩
  · cases ok with
    | true => exact (State.arrow_headerOk hs).imp id .inl
    | false => exact .inr (.inr (State.ends_raiseNoMatch (.inl ⟨hs, rfl⟩)))
  · cases ok with
    | true => exact .inr (.inl (State.arrow_markOk hs))
    | false => exact .inr (.inr (State.ends_raiseNoMatch (.inr ⟨.inl hs, rfl⟩)))
  · exact .inr (State.arrow_takeBit hs _)
  · exact .inr (.inr (State.ends_raiseNoMatch (.inr ⟨.inr hs, rfl⟩)))
  · exact .inl ⟨rfl, rfl⟩

theorem State.arrow_checkLength {s : State} (hs : s.dec.state = .len) :
    s.GoesOn s.checkLength ∨ s.Ends s.checkLength := by
  obtain ⟨hn, h⟩ | ⟨hn, h⟩ := s.checkLength_cases <;> rw [h]
  · refine .inr ⟨_, _, _, rfl, rfl, rfl, rfl, rfl, ?_, .inr ⟨⟨rfl, rfl, rfl⟩, .inl ⟨hs, hn, rfl⟩⟩⟩
    dsimp only
    split
    · exact Nat.le_succ _
    · exact le_rfl
  · exact .inl ⟨rfl, .inl ⟨hs, rfl, hn⟩⟩

theorem State.arrow_moveDec (s : State) : s.Stays s.moveDec ∨ s.GoesOn s.moveDec ∨ s.Ends s.moveDec := by
  obtain ⟨-, h⟩ | ⟨hs, h⟩ | ⟨hscan, h⟩ := s.moveDec_cases <;> rw [h]
  · exact .inl ⟨rfl, rfl⟩
  · exact .inr (State.arrow_checkLength hs)
  · obtain ⟨-, h⟩ | ⟨-, -, -, h⟩ | ⟨x, r, -, -, -, -, h⟩ | ⟨x, -, -, -, hr, h⟩ := s.advanceScan_cases <;> rw [h]
    · exact .inl ⟨rfl, rfl⟩
    · exact .inl ⟨rfl, rfl⟩
    · exact .inl ⟨rfl, rfl⟩
    · exact .inr (.inl (State.arrow_markOk (Decoder.matchReq_none (DecState.two_le_code hscan) hr).1))

/-- What a move but reset does to the state of `DEC` and to the results. -/
theorem State.Moves.arrow {s t : State} {a : Act} (h : s.Moves a t) (hreset : a ≠ .reset) :
    (s.Stays t ∨ (s.dec.state = .idle ∧ t.dec.state = .len ∧ t.res = s.res ∧ a = .host)) ∨ s.GoesOn t ∨ s.Ends t := by
  cases h with
  | decode hs => exact .inl (.inr ⟨hs, rfl, rfl, rfl⟩)
  | dec => exact s.arrow_moveDec.imp .inl id
  | answer r a n => exact (State.arrow_useAnswer _ (s.answered r a n _)).imp .inl id
  | reset => exact absurd rfl hreset
  | _ => exact .inl (.inl ⟨rfl, rfl⟩)

theorem State.Ends.busy {s t : State} (h : s.Ends t) : s.dec.state ≠ .idle ∧ t.dec.state = .idle := by
  obtain ⟨u, f, v, rfl, hidle, -, -, -, -, hby⟩ := h
  refine ⟨fun hs => ?_, by simp [hidle]⟩
  simp [State.EndsBy, hs] at hby

/-- A step but reset that takes a busy `DEC` to `D_IDLE` is the end of the DECODE. -/
theorem ends_of_step {s t : State} {a : Act} {rest : List Act} (hs : s.script = a :: rest) (hreset : a ≠ .reset)
    (hstep : step s = .next t) (hbusy : s.dec.state ≠ .idle) (hidle : t.dec.state = .idle) : s.Ends t := by
  obtain (⟨hstate, -⟩ | ⟨hstart, -⟩) | ⟨-, harrow⟩ | hends := (moves_of_step hs hstep).arrow hreset
  · exact absurd (hstate.symm.trans hidle) hbusy
  · exact absurd hstart hbusy
  · simp [hidle] at harrow
  · exact hends

/-- Settles O36: only the end of a DECODE writes the results. -/
theorem resultsWrittenOnlyAtReturn : Obligations.ResultsWrittenOnlyAtReturn := by
  intro s t a rest hs hreset hstep hres
  obtain (⟨-, hsame⟩ | ⟨-, -, hsame, -⟩) | ⟨hsame, -⟩ | hends := (moves_of_step hs hstep).arrow hreset
  · exact absurd hsame hres
  · exact absurd hsame hres
  · exact absurd hsame hres
  · exact hends.busy

/-- Settles O37: `DEC` stays, accepts a DECODE, goes on along an arrow, or ends. -/
theorem decoderTransitionRelation : Obligations.DecoderTransitionRelation := by
  intro s t a rest hs hreset hstep hne
  obtain (⟨hsame, -⟩ | ⟨hidle, hlen, -, ha⟩) | ⟨-, h⟩ | hends := (moves_of_step hs hstep).arrow hreset
  · exact absurd hsame hne
  · exact .inl ⟨hidle, hlen, ha⟩
  · obtain ⟨hs, ht, hn⟩ | ⟨hs, ht, hi⟩ | ⟨hs, ht⟩ | ⟨hs, ht, hi⟩ := h <;> replace hs : s.dec.state = _ := hs
    · exact .inr (.inr (.inl ⟨hs, ht, hn⟩))
    · simp [hs, ht, show s.dec.idx = 4 from hi]
    · simp [hs, ht]
    · simp [hs, ht, show s.dec.i.toNat ≠ 111 from hi]
  · obtain ⟨-, hidle⟩ := hends.busy
    obtain ⟨u, f, v, -, -, -, -, -, -, hby⟩ := hends
    obtain ⟨hs, -⟩ | ⟨-, ⟨hs, hn, -⟩ | ⟨hs, -⟩ | ⟨hs | hs, -⟩⟩ := hby <;> replace hs : s.dec.state = _ := hs
    · simp [hs, hidle]
    · exact .inr (.inl ⟨hs, hidle, hn⟩)
    · simp [hs, hidle]
    · simp [hs, hidle]
    · simp [hs, hidle]

/-! The outcome. -/

/-- Over a stable buffer the outcome of `finish` is its own, over a changed one it is drawn (R51, R109, R156). -/
theorem State.Ends.res_cases {s t : State} (h : s.Ends t) :
    (s.capture.broken = false ∧ ∃ f v, s.EndsBy t.dec f v ∧ t.res = s.res.after s.tag f v)
      ∨ (s.capture.broken = true ∧ ∃ k, s.draws ≤ k ∧ t.draws = k + 1
          ∧ t.res = s.res.after s.tag (drawnFailure k) (Config.freePayload k)) := by
  obtain ⟨u, f, v, rfl, -, hbuild, hres, hcapture, hdraws, hby⟩ := h
  have htag : u.tag = s.tag := by rw [State.tag, State.tag, hbuild]
  obtain ⟨hst, heq⟩ | ⟨hbroken, heq⟩ := u.finish_cases f v
  · refine .inl ⟨hcapture ▸ hst, f, v, by rwa [State.finish_dec], ?_⟩
    rw [heq, hres, htag]
  · refine .inr ⟨hcapture ▸ hbroken, u.draws, hdraws, by rw [heq], ?_⟩
    rw [heq, hres, htag]

/-- An outcome writes the whole record, or the status alone, with the cell for a bit failure (R24, R156). -/
theorem Result.after_cases (r : Result) (tag : Nat) (f : Option NoMatch) (v : Payload) :
    (r.after tag f v = ⟨.stMatch, r.errIdx, true, v, 112, tag⟩ ∧ f = none)
      ∨ (r.after tag f v = { r with status := .stNoMatchLength } ∧ f = some .length)
      ∨ (r.after tag f v = { r with status := .stNoMatchHeader } ∧ f = some .header)
      ∨ ∃ i, r.after tag f v = { r with status := .stNoMatchBit, errIdx := i } ∧ f = some (.bit i) := by
  cases f with
  | none => exact .inl ⟨rfl, rfl⟩
  | some e =>
    cases e with
    | length => exact .inr (.inl ⟨rfl, rfl⟩)
    | header => exact .inr (.inr (.inl ⟨rfl, rfl⟩))
    | bit i => exact .inr (.inr (.inr ⟨i, rfl, rfl⟩))

/-- Settles O35: the end of a DECODE writes one outcome, and over a stable buffer it is that of the step. -/
theorem decodeEndsWithOneOutcome : Obligations.DecodeEndsWithOneOutcome := by
  intro s t a rest hs hreset hstep hbusy hidle
  have hends := (ends_of_step hs hreset hstep hbusy hidle).res_cases
  refine ⟨?_, fun hst => ?_⟩
  · obtain ⟨f, v, hres⟩ : ∃ f v, t.res = s.res.after s.tag f v := by
      obtain ⟨-, f, v, -, hres⟩ | ⟨-, k, -, -, hres⟩ := hends
      · exact ⟨f, v, hres⟩
      · exact ⟨_, _, hres⟩
    obtain ⟨h, -⟩ | ⟨h, -⟩ | ⟨h, -⟩ | ⟨i, h, -⟩ := s.res.after_cases s.tag f v <;> simp [State.SameRecord, hres, h]
  · obtain ⟨-, f, v, hby, hres⟩ | ⟨hbroken, -⟩ := hends
    · obtain ⟨hstate, hi, rfl, rfl⟩ | ⟨hkeep, hreason⟩ := hby
      · rw [hres]; exact .inl ⟨hstate, hi, rfl, rfl⟩
      · rw [State.SameRecord, hres]
        obtain ⟨hstate, -, rfl⟩ | ⟨hstate, rfl⟩ | ⟨hstate, rfl⟩ := hreason
        · exact .inr ⟨⟨rfl, rfl, rfl, rfl⟩, hkeep.1, hkeep.2.1, hkeep.2.2, .inl ⟨hstate, rfl⟩⟩
        · exact .inr ⟨⟨rfl, rfl, rfl, rfl⟩, hkeep.1, hkeep.2.1, hkeep.2.2, .inr (.inl ⟨hstate, rfl⟩)⟩
        · exact .inr ⟨⟨rfl, rfl, rfl, rfl⟩, hkeep.1, hkeep.2.1, hkeep.2.2, .inr (.inr ⟨hstate, rfl, rfl⟩)⟩
    · exact absurd (hst.symm.trans hbroken) (by decide)

/-- Settles O55: over a changed buffer the outcome is that of a draw, and the draw is counted. -/
theorem brokenDutyFreesTheResult : Obligations.BrokenDutyFreesTheResult := by
  intro s t a rest hs hreset hstep hbusy hidle hbroken
  obtain ⟨hst, -⟩ | ⟨-, k, hk, hdraws, hres⟩ := (ends_of_step hs hreset hstep hbusy hidle).res_cases
  · exact absurd (hst.symm.trans hbroken) (by decide)
  · refine ⟨k, hk, hdraws, fun hf => ?_, fun hf => ?_, fun hf => ?_, fun i hf => ?_⟩ <;>
      simp only [hres, drawnFailure, hf, State.SameRecord]
    · rfl
    · rfl
    · rfl
    · exact ⟨⟨rfl, rfl, rfl, rfl⟩, rfl, BitVec.toNat_umod⟩

/-! Acceptance, the length check and the queries. -/

/-- Settles O26: an idle `DEC` answers `acceptDecode`, a busy one the state as it is. -/
theorem decodeIsAccepted : Obligations.DecodeIsAccepted :=
  ⟨fun _ hs => ⟨_, exec_decode_accepted hs, rfl, rfl, rfl, rfl, rfl, ⟨fun _ => rfl, rfl⟩, rfl, rfl, rfl, rfl, rfl⟩,
    fun _ => exec_decode_busy⟩

theorem step_dec {s : State} {rest : List Act} (hs : s.script = .dec :: rest) :
    step s = .next (s.withScript rest).moveDec :=
  (step_cons hs).trans (runAct_move rfl)

/-- A length check that passes (R103). -/
theorem State.moveDec_passes {s : State} (hs : s.dec.state = .len) (hn : s.sampledCount = 230) :
    s.moveDec =
      { s with
        draws := if s.capture.countLow.isSome then s.draws + 1 else s.draws
        dec := { s.dec with state := .hdr, idx := 1, i := 0, acc := 0, entry := none, zeroTest := false } } := by
  obtain ⟨hne, -⟩ | ⟨-, h⟩ := s.checkLength_cases
  · exact absurd hn hne
  · exact (State.moveDec_len hs).trans h

/-- Settles O38: a length check that passes writes `DEC_IDX`, `DEC_I` and `DEC_ACC` and reads none of them. -/
theorem decodeForgetsOldScratch : Obligations.DecodeForgetsOldScratch := by
  intro s rest x i acc hs hlen hn
  obtain ⟨u, hu⟩ : ∃ u : State, u = { s with dec := { s.dec with idx := x, i := i, acc := acc } } := ⟨_, rfl⟩
  rw [← hu, step_dec hs, step_dec (s := u) (by rw [hu]; exact hs),
    State.moveDec_passes (s := s.withScript rest) hlen hn,
    State.moveDec_passes (s := u.withScript rest) (by rw [hu]; exact hlen) (by rw [hu]; exact hn), hu]
  rfl

theorem State.moveDec_idle {s : State} (h : s.dec.state = .idle) : s.moveDec = s := by
  simp [State.moveDec, h]

theorem State.advanceScan_reads {s : State} (hcap : s.dec.capPort = none) (hmatch : s.dec.matchPort = none)
    (hentry : s.dec.entry = none) : s.advanceScan = s.issueRead := by
  simp [State.advanceScan, hcap, hmatch, hentry]

theorem State.advanceScan_waits {s : State} (h : s.dec.capPort.isSome = true ∨ s.dec.matchPort.isSome = true) :
    s.advanceScan = s := by
  simp [State.advanceScan, h]

/-- Settles O58: a step of `DEC` issues its CAPREAD, then waits for what is outstanding. -/
theorem decoderWaitsForItsAnswer : Obligations.DecoderWaitsForItsAnswer := by
  have hscan : ∀ d : DecState, d = .hdr ∨ d = .bitm ∨ d = .bits → d.scanning = true := by
    rintro d (rfl | rfl | rfl) <;> rfl
  refine ⟨fun s rest hs hstate hcap hmatch hentry => ?_, fun s rest hs hstate hport => ?_, fun s rest hs hidle => ?_⟩
  · rw [step_dec hs, State.moveDec_scanning (s := s.withScript rest) (hscan _ hstate),
      State.advanceScan_reads (s := s.withScript rest) hcap hmatch hentry]
    rfl
  · rw [step_dec hs, State.moveDec_scanning (s := s.withScript rest) (hscan _ hstate),
      State.advanceScan_waits (s := s.withScript rest) hport]
    rfl
  · rw [step_dec hs, State.moveDec_idle (s := s.withScript rest) hidle]
    rfl

end Sys2Proof.Machine

/-! How a step runs a word (R70, R71, R179), what the emitter commands do (R131 to R135), what CAPTURE and its answers
do (R26, R40, R51, R136), and what HOST reads (R141, R171, R172). -/

namespace Sys2Proof.Machine

open Sys2Proof

/-! A word on its port. -/

theorem runAct_error {a : Act} {s : State} {w : PortWord} {r : DecodeReject} (h : s.fetch a = some w)
    (hd : decode s.build w = .error r) : runAct a s = .refused (.undecodableWord r) := by
  simp [runAct, h, hd]

/-- Settles O6: the step makes the move, and the move runs the word. -/
theorem stepRunsDecodedInstruction : Obligations.StepRunsDecodedInstruction :=
  fun s _ rest _ _ hs hf hd => (step_cons hs).trans (runAct_word (s := s.withScript rest) hf hd)

/-- A placed word is fetched by the agent that moves next. -/
theorem step_place {s : State} {w : PortWord} {i : Instr} (hd : decode s.build w = .ok i) :
    step (s.place w) = exec i { s.place w with script := s.script } := by
  cases w <;> exact (step_cons rfl).trans (runAct_word rfl hd)

/-- A word of the opcode table is a word of the port of its width. -/
theorem decodeTableWord_some {nbits w : Nat} {i : Instr} (h : decodeTableWord nbits w = some i) :
    ∃ p, Port.ofTableBits nbits = some p ∧ decode .default (p.wordOf w) = .ok i := by
  unfold decodeTableWord at h
  split at h
  · cases h
  · next p hp =>
    split at h
    · next j hj =>
      cases h
      refine ⟨p, hp, ?_⟩
      unfold decodeAt at hj
      split at hj
      · exact hj
      · cases hj
    · cases h

/-- Settles O7: `place` puts the word on the port of the agent that it lets move next, and so does `withFetchWord`. -/
theorem placedWordRunsNext : Obligations.PlacedWordRunsNext := by
  refine ⟨fun s w i => step_place, fun s nbits w i hb h => ?_⟩
  obtain ⟨p, hp, hd⟩ := decodeTableWord_some h
  have hplace : s.withFetchWord nbits w = s.place (p.wordOf w) := by simp [State.withFetchWord, hp]
  rw [hplace]
  exact step_place (by rw [hb]; exact hd)

/-- Settles O8: the word on the emitter port is rejected by the decoder, by name. -/
theorem reservedEopIsRefused : Obligations.ReservedEopIsRefused := by
  intro s rest x hs hp hx
  have hf : (s.withScript rest).fetch .emitter = some (.emitter x) := by simp [State.fetch, hp]
  exact (step_cons hs).trans (runAct_error hf (decodeEmit_reserved hx))

/-- Settles O9: the two moves of HOST write its port alone. -/
theorem hostPortActs : Obligations.HostPortActs :=
  ⟨fun _ _ _ hs => (step_cons hs).trans (runAct_move rfl), fun _ _ hs => (step_cons hs).trans (runAct_move rfl),
    fun s hs => by simp [step, hs]⟩

/-! The emitter commands. -/

/-- Settles O15: MARK is run to its end. -/
theorem markTurnsEmitterOn : Obligations.MarkTurnsEmitterOn :=
  fun _ _ => ⟨_, rfl, rfl, rfl, rfl, rfl⟩

/-- Settles O16: a SPACE of some length is run to its end. -/
theorem spaceTurnsEmitterOff : Obligations.SpaceTurnsEmitterOff :=
  fun _ _ hd => ⟨_, rfl, rfl, rfl, if_neg (Nat.ne_of_gt hd), rfl⟩

/-- Settles O17: SPACE 0 is run to its end. -/
theorem spaceZeroForcesOff : Obligations.SpaceZeroForcesOff :=
  fun _ => ⟨_, rfl, rfl, rfl, rfl, rfl⟩

/-- Settles O18: SETCARRIER is run to its end. -/
theorem setCarrierSetsFrequency : Obligations.SetCarrierSetsFrequency :=
  fun _ _ => ⟨_, rfl, rfl, rfl, rfl, rfl⟩

/-- Settles O19: `runCommand` writes the emitter, and of `ENC` the phase, the count and the port. -/
theorem emitterCommandFrame : Obligations.EmitterCommandFrame :=
  fun c s => ⟨s.runCommand c, exec_toInstr c s, ⟨rfl, rfl, rfl, rfl, rfl, ⟨fun _ => rfl, rfl⟩, rfl, rfl⟩, rfl, rfl, rfl,
    fun h => if_neg h⟩

/-! CAPREAD. -/

theorem State.onlyDecoder_answerRead (i : CapIdx) (d : Nat) (s : State) : s.OnlyDecoder (s.answerRead i d) := rfl

/-- Settles O31: the entry is answered, and no draw is made. -/
theorem capReadReturnsTheEntry : Obligations.CapReadReturnsTheEntry :=
  fun i s hi h => ⟨_, exec_capRead (State.readEntry_present h hi), rfl,
    (State.onlyDecoder_answerRead i _ s).sameOutsideDecoder, rfl, by simp [h], rfl⟩

/-- Settles O32: no entry is there to answer. -/
theorem absentEntryFaults : Obligations.AbsentEntryFaults :=
  fun _ _ hi h => exec_capRead_absent (State.readEntry_absent h hi)

/-- Settles O53: a draw is answered and counted. -/
theorem changedEntryReadsAnyValue : Obligations.ChangedEntryReadsAnyValue :=
  fun i s h => ⟨_, exec_capRead (State.readEntry_touched h), rfl,
    (State.onlyDecoder_answerRead i _ s).sameOutsideDecoder, rfl, by simp [h], rfl⟩

/-! CAPTURE's own moves. -/

theorem Capture.mem_dirty_write {c : Capture} {i d a : Nat} {busy : Bool} :
    a ∈ (c.write i d busy).dirty ↔ a ∈ c.dirty ∨ (a = i ∧ busy = true) := by
  by_cases hmark : busy = true ∧ i ∉ c.dirty
  · simp [Capture.write, hmark.1, hmark.2, or_comm]
  · have hdirty : (c.write i d busy).dirty = c.dirty := by
      simpa [Capture.write] using fun hb => by_contra fun hi => hmark ⟨hb, hi⟩
    rw [hdirty]
    refine ⟨.inl, ?_⟩
    rintro (ha | ⟨rfl, hb⟩)
    · exact ha
    · exact by_contra fun hi => hmark ⟨hb, hi⟩

theorem Capture.touched_iff {c : Capture} {i : CapIdx} :
    c.touched i = true ↔ i.toNat ∈ c.dirty ∨ ∃ low, c.countLow = some low ∧ low ≤ i.toNat := by
  cases h : c.countLow <;> simp [Capture.touched, h]

theorem step_capWrite {s : State} {rest : List Act} {i d : Nat} (hs : s.script = .capWrite i d :: rest) :
    step s = .next ((s.withScript rest).capWrite i d) :=
  (step_cons hs).trans (runAct_move rfl)

theorem step_capCount {s : State} {rest : List Act} {n : Nat} (hs : s.script = .capCount n :: rest) :
    step s = .next ((s.withScript rest).capCount n) :=
  (step_cons hs).trans (runAct_move rfl)

theorem step_capture {s : State} {rest : List Act} {i : CapIdx} {d : Nat} (hs : s.script = .capture :: rest)
    (hp : s.dec.capPort = some i) (hr : s.readEntry i = some d) :
    step s = .next ((s.withScript rest).answerRead i d) :=
  (step_cons hs).trans (runAct_capture (s := s.withScript rest) hp hr)

/-- Settles O57: a write sets one entry and its mark, a count sets the count and its mark. -/
theorem captureActs : Obligations.CaptureActs := by
  refine ⟨fun s i d rest hs hwf => ?_, fun s n rest hs => ?_⟩
  · refine ⟨_, step_capWrite hs, fun a => Memory.read_write _ i _ a hwf, rfl, Memory.wf_write _ i _ hwf,
      ⟨rfl, rfl, rfl, rfl, rfl, rfl, rfl⟩, rfl, fun a => ?_, rfl⟩
    rw [← State.decBusy_eq_true]
    exact Capture.mem_dirty_write
  · refine ⟨_, step_capCount hs, rfl, fun _ => rfl, rfl, ⟨rfl, rfl, rfl, rfl, rfl, rfl, rfl⟩, rfl, rfl, fun hidle => ?_,
      fun hbusy => ?_⟩
    · have hbusy : (s.withScript rest).decBusy = false := State.decBusy_eq_false.mpr hidle
      simp [hbusy]
    · have hbusy' : (s.withScript rest).decBusy = true := State.decBusy_eq_true.mpr hbusy
      simp [Capture.broken, hbusy']

/-- Settles O33: the write marks the entry if `DEC` is busy, and the mark makes the answer a draw. -/
theorem writeUnderDecodeReadsAnyValue : Obligations.WriteUnderDecodeReadsAnyValue := by
  intro s i d rest hs hp hwf hi ht
  obtain ⟨u, hu⟩ : ∃ u, u = (s.withScript (.capture :: rest)).capWrite i.toNat d := ⟨_, rfl⟩
  have hmark : u.capture.touched i = s.decBusy := by
    rw [Bool.eq_iff_iff, Capture.touched_iff, hu]
    have hnot := mt Capture.touched_iff.mpr (Bool.eq_false_iff.mp ht)
    rw [not_or] at hnot
    exact ⟨fun h => h.elim (fun hmem => ((Capture.mem_dirty_write.mp hmem).resolve_left hnot.1).2)
      (fun hlow => absurd hlow hnot.2), fun hbusy => .inl (Capture.mem_dirty_write.mpr (.inr ⟨rfl, hbusy⟩))⟩
  have hread : u.readEntry i = some (s.build.asDur (if s.dec.state = .idle then d else Config.freeDur s.draws)) := by
    by_cases hidle : s.dec.state = .idle
    · rw [State.readEntry_present (hmark.trans (State.decBusy_eq_false.mpr hidle)) (by rw [hu]; exact hi),
        if_pos hidle, hu]
      simp [Memory.read_write _ _ _ _ hwf]
    · rw [State.readEntry_touched (hmark.trans (State.decBusy_eq_true.mpr hidle)), if_neg hidle, hu]
      rfl
  have hcapture := step_capture (s := u) (by rw [hu]; rfl) (by rw [hu]; exact hp) hread
  exact ⟨_, by rw [run_succ (step_capWrite hs), ← hu, run_succ hcapture, run_zero], rfl⟩

/-- Settles O54: the marked count is the least one there was, so an entry absent at any of the counts is a draw. -/
theorem countChangeMakesEntriesFree : Obligations.CountChangeMakesEntriesFree := by
  intro s i n m rest hs hbusy hp habsent
  obtain ⟨u, hu⟩ : ∃ u, u = ((s.withScript (.capture :: rest)).capCount n).capCount m := ⟨_, rfl⟩
  have hlow : u.capture.countLow = some (min (min (s.capture.countLow.getD s.capture.count)
      (min s.capture.count (s.build.asCount n))) (min (s.build.asCount n) (s.build.asCount m))) := by
    have hb : s.decBusy = true := State.decBusy_eq_true.mpr hbusy
    simp [hu, State.decBusy, hbusy]
  have ht : u.capture.touched i = true := Capture.touched_iff.mpr (.inr ⟨_, hlow, by omega⟩)
  have hcapture := step_capture (s := u) (by rw [hu]; rfl) (by rw [hu]; exact hp) (State.readEntry_touched ht)
  have hcount : step ((s.withScript (.capCount m :: .capture :: rest)).capCount n) = .next u :=
    (step_capCount rfl).trans (by rw [hu]; rfl)
  refine ⟨_, by rw [run_succ (step_capCount hs), run_succ hcount, run_succ hcapture, run_zero], ?_⟩
  rw [hu]; rfl

/-! HOST's view and reset. -/

/-- Settles O43: the view is made of the registers, output by output. -/
theorem hostOutputs : Obligations.HostOutputs := by
  intro s
  refine ⟨State.encBusy_eq_true, State.decBusy_eq_true, fun h => ?_, fun h => ?_, fun h => ?_, fun h => ?_, fun h => ?_,
    rfl, fun h => ?_, fun h => ?_, rfl⟩
  all_goals simp [State.hostView, DecStatus.code, h]

theorem step_reset {s : State} {rest : List Act} (hs : s.script = .reset :: rest) :
    step s = .next (s.withScript rest).blockReset :=
  (step_cons hs).trans (runAct_move rfl)

/-- Settles O44: the registers and the constants have the values of the spec. -/
theorem resetValues : Obligations.ResetValues :=
  ⟨fun _ => ⟨rfl, rfl, rfl, rfl, rfl, rfl, rfl, rfl, rfl⟩, ⟨rfl, rfl, rfl, rfl, rfl⟩,
    fun _ _ hs => ⟨_, step_reset hs, rfl, rfl, rfl, rfl, rfl⟩⟩

/-- Settles O45: reset writes the registers of the block, and the level alone of what EMITTER holds. -/
theorem resetAbandonsOperations : Obligations.ResetAbandonsOperations := by
  intro s rest hs
  refine ⟨_, step_reset hs, rfl, rfl, rfl, rfl, rfl, rfl, rfl, rfl, rfl, rfl, rfl, fun hp => ?_, ⟨fun _ => rfl, rfl⟩,
    rfl, rfl⟩
  simp [hp]

/-! The tolerance predicate. -/

theorem matchTol_mp2 : MP2 matchTol := by
  simp [MP2, matchTol, matchWith, isFixedNo, isTableDur, Config.timing]

theorem isTableDur_iff {n : Nat} : isTableDur n = true ↔ n = 3050 ∨ n = 4350 ∨ n = 600 ∨ n = 1690 := by
  simp only [isTableDur, Bool.or_eq_true, decide_eq_true_eq]
  simp only [Config.timing]
  omega

theorem isFixedNo_iff {r : Role} {a n : Nat} : isFixedNo r a n = true ↔
    r = .space ∧ ((a = 2000 ∧ (n = 600 ∨ n = 1690)) ∨ (a = 600 ∧ n = 1690)) := by
  simp only [isFixedNo, Bool.and_eq_true, Bool.or_eq_true, decide_eq_true_eq]
  rfl

/-- Settles O42: `matchWith` asks its function only where the properties say nothing, and elsewhere they agree with
it. -/
theorem tolerancePredicateIsAnyWithMP : Obligations.TolerancePredicateIsAnyWithMP := by
  refine ⟨⟨matchTol_mp1, matchTol_mp2, matchTol_mp3⟩, fun m h1 h2 h3 r a n => ?_⟩
  unfold matchWith
  split
  · next hyes =>
    obtain ⟨rfl, htable⟩ : a = n ∧ isTableDur n = true := by simpa using hyes
    exact (h1 r a (isTableDur_iff.mp htable)).symm
  · split
    · next hno =>
      obtain ⟨rfl, ⟨rfl, rfl | rfl⟩ | ⟨rfl, rfl⟩⟩ := isFixedNo_iff.mp hno
      · exact h2.1.symm
      · exact h2.2.symm
      · exact Eq.symm h3
    · rfl

end Sys2Proof.Machine

/-! The two sides of the block commute (R162). -/

namespace Sys2Proof.Machine

open Sys2Proof

/-- The state with another encoder side. -/
def State.withEncoder (e : Encoder) (m : Emitter) (s : State) : State := { s with enc := e, emitter := m }

/-! The operations of `DEC` do not look at the encoder side. -/

section
variable (e : Encoder) (m : Emitter) (s : State)

theorem State.finish_withEncoder (f : Option NoMatch) (v : Payload) :
    (s.withEncoder e m).finish f v = (s.finish f v).withEncoder e m := by
  refine Eq.trans ?_ (apply_ite (State.withEncoder e m) _ _ _).symm
  rfl

theorem State.raiseNoMatch_withEncoder (r : NoMatch) :
    (s.withEncoder e m).raiseNoMatch r = (s.raiseNoMatch r).withEncoder e m :=
  State.finish_withEncoder e m { s with dec := { s.dec with state := .idle, entry := none, zeroTest := false } } _ _

theorem State.checkLength_withEncoder : (s.withEncoder e m).checkLength = s.checkLength.withEncoder e m := by
  refine Eq.trans ?_ (apply_ite (State.withEncoder e m) _ _ _).symm
  rw [← State.raiseNoMatch_withEncoder]; rfl

theorem State.takeBit_withEncoder (b : Bool) : (s.withEncoder e m).takeBit b = (s.takeBit b).withEncoder e m := by
  refine Eq.trans ?_ (apply_ite (State.withEncoder e m) _ _ _).symm
  rw [← State.finish_withEncoder]; rfl

theorem State.useAnswer_withEncoder (ok : Bool) :
    (s.withEncoder e m).useAnswer ok = (s.useAnswer ok).withEncoder e m := by
  cases hs : s.dec.state with
  | idle =>
    rw [State.useAnswer_none (.inl hs), State.useAnswer_none (s := s.withEncoder e m) (.inl hs)]
  | len =>
    rw [State.useAnswer_none (.inr hs), State.useAnswer_none (s := s.withEncoder e m) (.inr hs)]
  | hdr =>
    rw [State.useAnswer_hdr hs, State.useAnswer_hdr (s := s.withEncoder e m) hs, apply_ite (State.withEncoder e m),
      State.raiseNoMatch_withEncoder]
    rfl
  | bitm =>
    rw [State.useAnswer_bitm hs, State.useAnswer_bitm (s := s.withEncoder e m) hs, apply_ite (State.withEncoder e m),
      State.raiseNoMatch_withEncoder]
    rfl
  | bits =>
    cases ok with
    | true =>
      rw [State.useAnswer_bits_yes hs, State.useAnswer_bits_yes (s := s.withEncoder e m) hs,
        State.takeBit_withEncoder]
      rfl
    | false =>
      rw [State.useAnswer_bits_no hs, State.useAnswer_bits_no (s := s.withEncoder e m) hs,
        apply_ite (State.withEncoder e m), State.raiseNoMatch_withEncoder]
      rfl

theorem State.advanceScan_withEncoder : (s.withEncoder e m).advanceScan = s.advanceScan.withEncoder e m := by
  obtain ⟨hwait, h⟩ | ⟨hcap, hmatch, hentry, h⟩ | ⟨x, r, hcap, hmatch, hx, hr, h⟩ | ⟨x, hcap, hmatch, hx, hr, h⟩ :=
    s.advanceScan_cases <;> rw [h]
  · exact State.advanceScan_waits (s := s.withEncoder e m)
      (hwait.imp Option.isSome_iff_ne_none.mpr Option.isSome_iff_ne_none.mpr)
  · exact State.advanceScan_reads (s := s.withEncoder e m) hcap hmatch hentry
  · simp [State.advanceScan, State.issueMatch, State.withEncoder, hcap, hmatch, hx, hr]
  · simp [State.advanceScan, State.issueMatch, State.withEncoder, hcap, hmatch, hx, hr]; rfl

theorem State.moveDec_withEncoder : (s.withEncoder e m).moveDec = s.moveDec.withEncoder e m := by
  obtain ⟨hs, h⟩ | ⟨hs, h⟩ | ⟨hs, h⟩ := s.moveDec_cases <;> rw [h]
  · exact State.moveDec_idle (s := s.withEncoder e m) hs
  · exact (State.moveDec_len (s := s.withEncoder e m) hs).trans (s.checkLength_withEncoder e m)
  · exact (State.moveDec_scanning (s := s.withEncoder e m) hs).trans (s.advanceScan_withEncoder e m)

end

/-- A move on the decoder's side is the same whatever the encoder's side holds. -/
theorem runAct_withEncoder {s u : State} {b : Act} (hb : b = .dec ∨ b = .capture ∨ b = .matcher)
    (h : runAct b s = .next u) (e : Encoder) (m : Emitter) :
    runAct b (s.withEncoder e m) = .next (u.withEncoder e m) := by
  cases moves_of_runAct h with
  | noWord _ hport hf =>
    obtain rfl | rfl | rfl := hb
    · simp at hport
    · exact runAct_move hf
    · exact runAct_move hf
  | dec => exact (runAct_move rfl).trans (congrArg _ (s.moveDec_withEncoder e m))
  | read i d hp hr => exact runAct_capture (s := s.withEncoder e m) hp hr
  | answer r a n hp hw =>
    exact (runAct_matcher (s := s.withEncoder e m) hp hw).trans
      (congrArg _ ((s.answered r a n _).useAnswer_withEncoder e m _))
  | _ => simp at hb

/-- A move on the encoder's side looks at the build and at that side alone. -/
theorem runAct_of_sameEncoder {s t u : State} {a : Act} (ha : a = .enc ∨ a = .emitter) (h : runAct a s = .next t)
    (hbuild : u.build = s.build) (henc : u.enc = s.enc) (hemitter : u.emitter = s.emitter) :
    runAct a u = .next (u.withEncoder t.enc t.emitter) := by
  have hsame : u.withEncoder s.enc s.emitter = u := by rw [State.withEncoder, ← henc, ← hemitter]
  cases moves_of_runAct h with
  | noWord _ hport hf =>
    obtain rfl | rfl := ha
    · simp at hport
    · rw [hsame]
      exact runAct_move (by simpa [State.fetch, henc] using hf)
  | issue =>
    rw [runAct_move rfl, State.withEncoder, ← hemitter, ← henc, ← hbuild]; rfl
  | command c hp hw =>
    rw [runAct_emitter (by rw [henc, hbuild]; exact hp) (by rw [hbuild]; exact hw), State.runCommand, henc, hemitter]
    rfl
  | _ => simp at ha

/-- Settles O51: each side's move is made over the other's result, and the two results go together in one state. -/
theorem agentsCommute : Obligations.AgentsCommute := by
  intro s t u a b ha hb hat hbu
  have ht : t = s.withEncoder t.enc t.emitter := (moves_of_runAct hat).onlyEncoder ha
  have hu := (moves_of_runAct hbu).onlyDecoder hb
  refine ⟨u.withEncoder t.enc t.emitter, ?_, runAct_of_sameEncoder ha hat hu.build hu.enc hu.emitter⟩
  rw [ht]
  exact runAct_withEncoder hb hbu _ _

end Sys2Proof.Machine

/-! The queries of a DECODE: the run of the decoder makes those of R112, part by part, cut after the failing one. -/

namespace Sys2Proof.Machine

open Sys2Proof

/-! A DECODE by its parts. -/

/-- From `s`, `n` rounds bring the DECODE to its end, with the queries of `parts` up to the first that fails. -/
def State.Asks (n : Nat) (parts : List QueryPart) (s : State) : Prop :=
  ∃ t : State, Leads (rounds n) s t ∧ t.dec.state = .idle ∧ t.dec.Fresh
    ∧ t.dec.queries = s.dec.queries ++ cutAfterFailure parts

theorem State.Asks.mono {s : State} {n n' : Nat} {parts : List QueryPart} (h : s.Asks n parts) (hn : n ≤ n') :
    s.Asks n' parts := by
  obtain ⟨t, hl, hs, hf, hq⟩ := h
  rw [← Nat.add_sub_cancel' hn]
  exact ⟨t, hl.rounds_trans (leads_rounds_idle hs hf _), hs, hf, hq⟩

theorem State.Asks.nil {s : State} (hs : s.dec.state = .idle) (hf : s.dec.Fresh) (n : Nat) : s.Asks n [] :=
  ⟨s, leads_rounds_idle hs hf n, hs, hf, (List.append_nil _).symm⟩

/-- One part is asked: on a yes the DECODE goes on with the others, on a no it has ended (R112, R155). -/
theorem State.Asks.cons {s t : State} {a n : Nat} {q : List Query} {ok : Bool} {parts : List QueryPart}
    (hl : Leads (rounds a) s t) (hq : t.dec.queries = s.dec.queries ++ q) (hyes : ok = true → t.Asks n parts)
    (hno : ok = false → t.dec.state = .idle ∧ t.dec.Fresh) : s.Asks (a + n) ((q, ok) :: parts) := by
  cases ok with
  | true =>
    obtain ⟨u, hu, hs, hf, hrest⟩ := hyes rfl
    exact ⟨u, hl.rounds_trans hu, hs, hf, by rw [hrest, hq, List.append_assoc]; rfl⟩
  | false =>
    obtain ⟨hs, hf⟩ := hno rfl
    exact State.Asks.mono ⟨t, hl, hs, hf, hq⟩ (Nat.le_add_right a n)

/-- The DECODE accepted in `s₀` is between two steps, in state `st`, at entry `k` of the buffer and cell `i`. -/
structure State.AtEntry (s₀ s : State) (st : DecState) (k i : Nat) : Prop where
  ongoing : s₀.Ongoing s
  state : s.dec.state = st
  idx : s.dec.idx.toNat = k
  cell : s.dec.i = BitVec.ofNat 7 i

theorem CapIdx.eq_ofNat {i : CapIdx} {k : Nat} (h : i.toNat = k) : i = BitVec.ofNat 8 k := by
  rw [← h, BitVec.ofNat_toNat, BitVec.setWidth_eq]

theorem State.Ended.idle_fresh {s₀ t : State} {v : Verdict} (h : s₀.Ended t v) : t.dec.state = .idle ∧ t.dec.Fresh :=
  ⟨h.idle, h.fresh⟩

/-! The bit loop. -/

theorem markPartRef_eq (m : Role → Nat → Nat → Bool) (mode : BitMarkMode) (cap : Nat → Nat) (i : Nat) :
    markPartRef m mode cap i =
      (markQueries mode (BitVec.ofNat 8 (5 + 2 * i)) (cap (5 + 2 * i)) (markOkRef m mode (cap (5 + 2 * i))),
        markOkRef m mode (cap (5 + 2 * i))) := by
  cases mode <;> rfl

theorem spacePartRef_eq (cap : Nat → Nat) (i : Nat) :
    spacePartRef matchTol cap i =
      (spaceQueries (BitVec.ofNat 8 (6 + 2 * i)) (cap (6 + 2 * i)),
        (spaceBitRef matchTol (cap (6 + 2 * i))).isSome) := by
  cases h1 : matchTol .space (cap (6 + 2 * i)) 1690 <;> cases h0 : matchTol .space (cap (6 + 2 * i)) 600 <;>
    simp [spacePartRef, spaceQueries, spaceBitRef, h1, h0]

/-- The parts of the `j` cells from cell `k` on. -/
def cellParts (cap : Nat → Nat) (k j : Nat) : List QueryPart :=
  (List.range' k j).flatMap fun i => [markPartRef matchTol Config.bitMarkMode cap i, spacePartRef matchTol cap i]

theorem cellParts_succ (cap : Nat → Nat) (k j : Nat) :
    cellParts cap k (j + 1) =
      markPartRef matchTol Config.bitMarkMode cap k :: spacePartRef matchTol cap k :: cellParts cap (k + 1) j := rfl

section
variable {s₀ s : State} {k n : Nat} {parts : List QueryPart} (hb : s₀.Framed)
include hb

/-- The mark of cell `k` is asked about (R106). -/
theorem State.AtEntry.asks_mark (hk : k < 112) (h : s₀.AtEntry s .bitm (5 + 2 * k) k)
    (hnext : ∀ t, s₀.AtEntry t .bits (6 + 2 * k) k → t.Asks n parts) :
    s.Asks (2 + n) (markPartRef matchTol Config.bitMarkMode s₀.capture.cells.read k :: parts) := by
  have hread := hb.readable_of h.ongoing
  have hlead : Leads (rounds 2) s _ :=
    leads_mark .rounds hread h.state h.ongoing.fresh (hb.present h.ongoing h.idx (by omega))
  rw [h.ongoing.nextEntry h.idx, CapIdx.eq_ofNat h.idx] at hlead
  rw [markPartRef_eq]
  cases hok : markOkRef matchTol Config.bitMarkMode (s₀.capture.cells.read (5 + 2 * k)) with
  | true =>
    rw [hok] at hlead
    exact .cons hlead rfl (fun _ => hnext _ ⟨(h.ongoing.asked _).markOk, rfl,
      (CapIdx.toNat_succ h.idx (by omega)).trans (by omega), h.cell⟩) nofun
  | false =>
    rw [hok, State.endMark_no hread.stable] at hlead
    exact .cons hlead rfl nofun fun _ => ((h.ongoing.asked _).failed _).idle_fresh

/-- The space of cell `k` is asked about; cell 111 is the last one (R107 to R109). -/
theorem State.AtEntry.asks_space (hk : k < 112) (h : s₀.AtEntry s .bits (6 + 2 * k) k)
    (hlast : k = 111 → parts = [])
    (hnext : k ≠ 111 → ∀ t, s₀.AtEntry t .bitm (5 + 2 * (k + 1)) (k + 1) → t.Asks n parts) :
    s.Asks (3 + n) (spacePartRef matchTol s₀.capture.cells.read k :: parts) := by
  have hread := hb.readable_of h.ongoing
  obtain ⟨a, ha, hlead⟩ : ∃ a ≤ 3, Leads (rounds a) s
      ((s.asked (spaceQueries s.dec.idx s.nextEntry)).endSpace (spaceBitRef matchTol s.nextEntry)) := by
    have hlead := leads_space .rounds hread h.state h.ongoing.fresh (hb.present h.ongoing h.idx (by omega))
    split at hlead
    · exact ⟨2, by omega, hlead⟩
    · exact ⟨3, le_rfl, hlead⟩
  suffices s.Asks (a + n) (spacePartRef matchTol s₀.capture.cells.read k :: parts) from this.mono (by omega)
  rw [h.ongoing.nextEntry h.idx, CapIdx.eq_ofNat h.idx] at hlead
  rw [spacePartRef_eq]
  cases hbit : spaceBitRef matchTol (s₀.capture.cells.read (6 + 2 * k)) with
  | none =>
    rw [hbit, State.endSpace_none hread.stable] at hlead
    exact .cons hlead rfl nofun fun _ => ((h.ongoing.asked _).failed _).idle_fresh
  | some b =>
    rw [hbit] at hlead
    have hi : s.dec.i.toNat = k := by rw [h.cell, BitVec.toNat_ofNat, Nat.mod_eq_of_lt (by omega)]
    by_cases hk111 : k = 111
    · rw [State.endSpace_last b (hi.trans hk111) hread.stable] at hlead
      obtain ⟨hidle, hfresh⟩ := ((h.ongoing.asked _).matched _).idle_fresh
      exact .cons hlead rfl (fun _ => by rw [hlast hk111]; exact .nil hidle hfresh n) nofun
    · rw [State.endSpace_next b (hi ▸ hk111)] at hlead
      have hcell : s.dec.i + 1 = BitVec.ofNat 7 (k + 1) := by rw [h.cell, BitVec.ofNat_add]; rfl
      exact .cons hlead rfl (fun _ => hnext hk111 _ ⟨(h.ongoing.asked _).nextCell _, rfl,
        (CapIdx.toNat_succ h.idx (by omega)).trans (by omega), hcell⟩) nofun

/-- The bit loop, from cell `k` on. -/
theorem State.AtEntry.asks_cells (j : Nat) (hjk : k + j = 111) (h : s₀.AtEntry s .bitm (5 + 2 * k) k) :
    s.Asks (5 * (j + 1)) (cellParts s₀.capture.cells.read k (j + 1)) := by
  induction j generalizing s k with
  | zero =>
    exact State.AtEntry.asks_mark (n := 3 + 0) hb (by omega) h fun t ht =>
      ht.asks_space hb (by omega) (fun _ => rfl) fun hne => absurd hjk hne
  | succ j ih =>
    refine State.Asks.mono (n := 2 + (3 + 5 * (j + 1))) ?_ (by omega)
    rw [cellParts_succ]
    exact h.asks_mark hb (by omega) fun t ht =>
      ht.asks_space hb (by omega) (fun hlast => by omega) fun _ u hu => ih (by omega) hu

/-! The header. -/

/-- The queries of header segment `k` (R104, R112). -/
def segmentPart (cap : Nat → Nat) (k : Nat) : QueryPart :=
  readMatchRef matchTol cap (1 + k) (if k % 2 = 0 then .mark else .space) (if k = 3 then 4350 else 3050)

/-- Segment `k` is asked about (R104). -/
theorem State.AtEntry.asks_segment (hk : k < 4) (h : s₀.AtEntry s .hdr (1 + k) 0)
    (hnext : ∀ t, s₀.AtEntry t (if k + 1 = 4 then .bitm else .hdr) (1 + (k + 1)) 0 → t.Asks n parts) :
    s.Asks (2 + n) (segmentPart s₀.capture.cells.read k :: parts) := by
  have hread := hb.readable_of h.ongoing
  have hseg := Decoder.segment_of_idx h.idx
  have hlead : Leads (rounds 2) s _ := leads_header .rounds hread h.state h.ongoing.fresh
    (hb.present h.ongoing h.idx (by omega)) (hseg ▸ headerRole_ofNat hk) (hseg ▸ headerNominal_ofNat hk)
  rw [h.ongoing.nextEntry h.idx, CapIdx.eq_ofNat h.idx] at hlead
  rw [segmentPart, readMatchRef]
  cases hok : matchTol (if k % 2 = 0 then .mark else .space) (s₀.capture.cells.read (1 + k))
      (if k = 3 then 4350 else 3050) with
  | true =>
    rw [hok] at hlead
    have hstate : (if s.dec.segment = 3 then DecState.bitm else .hdr) = if k + 1 = 4 then .bitm else .hdr := by
      rw [hseg]; interval_cases k <;> rfl
    exact .cons hlead rfl (fun _ => hnext _ ⟨(h.ongoing.asked _).headerOk, hstate,
      (CapIdx.toNat_succ h.idx (by omega)).trans (by omega), h.cell⟩) nofun
  | false =>
    rw [hok, State.endHeader_no hread.stable] at hlead
    exact .cons hlead rfl nofun fun _ => ((h.ongoing.asked _).failed _).idle_fresh

/-- The header, from segment `k` on, and then the bit loop. -/
theorem State.AtEntry.asks_header (j : Nat) (hjk : k + j = 4)
    (h : s₀.AtEntry s (if k = 4 then .bitm else .hdr) (1 + k) 0) :
    s.Asks (2 * j + 560) ((List.range' k j).map (segmentPart s₀.capture.cells.read)
      ++ cellParts s₀.capture.cells.read 0 112) := by
  induction j generalizing s k with
  | zero =>
    obtain rfl : k = 4 := hjk
    exact State.Asks.mono (State.AtEntry.asks_cells hb 111 rfl h) (by omega)
  | succ j ih =>
    rw [if_neg (by omega)] at h
    refine State.Asks.mono (n := 2 + (2 * j + 560)) ?_ (by omega)
    exact h.asks_segment hb (by omega) fun t ht => ih (by omega) ht

end

/-- The parts of a DECODE over a buffer of the right length are those of R112. -/
theorem queriesRef_eq (cap : Nat → Nat) :
    queriesRef matchTol Config.bitMarkMode 230 cap
      = cutAfterFailure ((List.range' 0 4).map (segmentPart cap) ++ cellParts cap 0 112) := by
  rw [cellParts, ← List.range_eq_range']; rfl

/-- From the length check on, a DECODE makes its queries in 569 rounds. -/
theorem State.asks_of_accepted {s : State} (hb : s.Readable) (hs : s.dec.state = .len) (hf : s.dec.Fresh) :
    ∃ t : State, Leads (rounds 569) s t ∧ t.dec.queries
      = s.dec.queries ++ queriesRef matchTol Config.bitMarkMode s.capture.count s.capture.cells.read := by
  have hround : ∀ {t}, s.checkLength = t → t.dec.capPort = none → t.dec.matchPort = none → Leads (rounds 1) s t := by
    rintro t rfl hcap hmatch
    exact (leads_checkLength hs).trans ((leads_capture_idle hcap).trans (leads_matcher_idle hmatch))
  by_cases hn : s.capture.count = 230
  · have hlead := hround (State.checkLength_passes hb.stable hn) hf.1 hf.2.1
    have hstart : s.AtEntry
        { s with dec := { s.dec with state := .hdr, idx := 1, i := 0, acc := 0, entry := none, zeroTest := false } }
        .hdr (1 + 0) 0 :=
      ⟨⟨rfl, rfl, rfl, rfl, hf.1, hf.2.1, rfl, rfl⟩, rfl, rfl, rfl⟩
    obtain ⟨t, ht, -, -, hq⟩ := State.AtEntry.asks_header ⟨hb, hn⟩ 4 rfl hstart
    exact ⟨t, hlead.rounds_trans (b := 568) ht, by rw [hq, hn, queriesRef_eq]⟩
  · have hlead := hround (State.checkLength_fails hb.stable hn) hf.1 hf.2.1
    have hend := (State.Ongoing.failed (s₀ := s) (s := s) ⟨rfl, rfl, rfl, rfl, hf⟩ .length).idle_fresh
    have hall := hlead.rounds_trans (leads_rounds_idle hend.1 hend.2 568)
    refine ⟨_, hall, ?_⟩
    rw [queriesRef, if_pos hn, List.append_nil]; rfl

/-- Settles O40: the script brings the DECODE to its end, with the queries of its parts. -/
theorem decodeRunMakesItsQueries : Obligations.DecodeRunMakesItsQueries := by
  intro s hsized hs hf hp hscript
  have hread := State.readable_of_sized (s := s.acceptDecode) hsized (Capture.settle_broken _)
  obtain ⟨t, hlead, hq⟩ := State.asks_of_accepted hread rfl hf
  have hrun := ((leads_acceptDecode hs hp).trans hlead).run (rest := []) (by rw [hscript, List.append_nil]; rfl)
  rw [List.length_append, length_rounds] at hrun
  exact ⟨_, hrun, hq⟩

end Sys2Proof.Machine
